-- ==== Sys2Proof/Word.lean ====
section
/-! DEFINITION. Words and the one piece of arithmetic every scan uses. -/

namespace Sys2Proof

/-- A data byte, an address byte or an operand byte (00_scope R12). -/
abbrev Byte := BitVec 8

/-- A programming command word, and what one command-word scan captures: 15 bits (00_scope R10,
R12; 90_conflicts C1). -/
abbrev CmdWord := BitVec 15

/-- A 16-bit flash word or the STATUS word (20_memory R50, 10_state R31). -/
abbrev Half := BitVec 16

/-- `trunc_w(v)`: the low `w` bits of a natural (00_scope R11). -/
def trunc (w v : Nat) : Nat := v % 2 ^ w

end Sys2Proof
end

