-- ==== Sys2Proof/Config.lean ====
section
/-! DEFINITION. What is fixed before a run: the document's constants, the launch configuration of
00_scope R9, the command-word table `CMD` as a type, the form of a scan's answer, and the free values.
The reference values of the parameters stand in Machine/Launch.lean. -/

namespace Sys2Proof

/-- A transport error value, opaque to the block (60_exceptions R340, R341). -/
abbrev TransportError := Nat

/-- What the environment answers to one scan (00_scope R11, 60_exceptions R347). A capture is cut to
the width of its scan where it is received. -/
inductive Answer where
  /-- The scan ran and captured these bits. -/
  | ok (c : Nat)
  /-- The transport failed with its own error value. -/
  | err (e : TransportError)
  /-- No answer ever comes. -/
  | silent
deriving DecidableEq, Repr, Inhabited

/-- Two consecutive words of a script. -/
structure Seq2 where
  w0 : CmdWord
  w1 : CmdWord
deriving DecidableEq, Repr

/-- Three consecutive words of a script. -/
structure Seq3 where
  w0 : CmdWord
  w1 : CmdWord
  w2 : CmdWord
deriving DecidableEq, Repr

/-- Four consecutive words of a script. -/
structure Seq4 where
  w0 : CmdWord
  w1 : CmdWord
  w2 : CmdWord
  w3 : CmdWord
deriving DecidableEq, Repr

/-- The command-word script table `CMD` (00_scope R9; 43_command_words R190): a field for each script,
its length the table's. A word with an operand is held with its operand bits as the base gives them. -/
structure Cmd where
  ceSeq : Seq4
  cePoll : CmdWord
  fwEnter : CmdWord
  addrHi : CmdWord
  addrLo : CmdWord
  dataLo : CmdWord
  dataHi : CmdWord
  latch : Seq3
  fwWrite : Seq4
  fwPoll : CmdWord
  frEnter : CmdWord
  frRead : Seq3
  ewEnter : CmdWord
  ewWrite : Seq4
  ewPoll : CmdWord
  erEnter : CmdWord
  erRead : Seq3
  fuEnter : CmdWord
  fuhWrite : Seq4
  fuhPoll : CmdWord
  fulWrite : Seq4
  fulPoll : CmdWord
  lkEnter : CmdWord
  lkData : CmdWord
  lkWrite : Seq4
  lkPoll : CmdWord
  flrEnter : CmdWord
  fuhRead : Seq2
  fulRead : Seq2
  lkRead : Seq2
  flrAll : Seq4
  sigEnter : CmdWord
  sigRead : Seq2
  calEnter : CmdWord
  calRead : Seq2
  nop : Seq2
deriving DecidableEq, Repr

/-- The launch configuration: every parameter of 00_scope R9 that the document does not fix, and the
TAP binding of R8. No step writes it (43_command_words R228). -/
structure Config where
  tapBound : Bool
  tapIrLen : Nat
  pollBudget : Nat
  irAvrReset : Nat
  irProgEnable : Nat
  irProgCommands : Nat
  resetDrWidth : Nat
  resetAssert : Nat
  resetRelease : Nat
  enableDrWidth : Nat
  enableSignature : Nat
  disablePattern : Nat
  busyBit : Nat
  flashWords : Nat
  pageWords : Nat
  eepromBytes : Nat
  sigBytes : Nat
  calBytes : Nat
  cmd : Cmd
deriving DecidableEq, Repr

/-- `IR_MAX_WIDTH` (00_scope R9). -/
def irMaxWidth : Nat := 8

/-- `DR_MAX_WIDTH` (00_scope R9). -/
def drMaxWidth : Nat := 32

/-- `IR_WIDTH` (00_scope R9, 10_state R32). -/
def irWidth : Nat := 4

/-- `PCMD_WIDTH` (00_scope R9, R10; 90_conflicts C1). -/
def pcmdWidth : Nat := 15

/-- `BUSY_LEVEL` (00_scope R9, 10_state R26): the document fixes it at 1 (log 17). -/
def busyLevel : Bool := true

/-- FREE VALUE (log 6): the answer to the `n`-th scan of the run for which the environment of the
state supplies none (00_scope R11: "a free input of the step (a draw), under no law beyond its width"). -/
opaque Config.freeAnswer : Nat → Answer

/-- FREE VALUE (log 26): the cell that the reference device takes for an address of a space of size 0,
where the spec gives `WA` and `EA` no value (47_reference_device R308; 00_scope R9, R11). -/
opaque Config.emptySpaceAddress : Nat → Nat

/-- FREE VALUE (log 4): `TAP_BOUND` of the launch configuration, which the spec leaves OPEN (D2). -/
opaque Config.openTapBound : Bool

/-- FREE VALUE (log 4): `TAP_IR_LEN` less one, so that the length is at least 1 (00_scope R9, D2). -/
opaque Config.openTapIrLen : Nat

/-- FREE VALUE (log 4): `POLL_BUDGET` less one, so that the budget is at least 1 (00_scope R9, D17). -/
opaque Config.openPollBudget : Nat

end Sys2Proof
end

