-- ==== Sys2Proof/Syntax.lean ====
section
/-! DEFINITION. The instructions: one constructor for each row of spec/opcode_table.json. Operands of
host operations are naturals and lists of naturals (30_encoding R81). Operands of command words are the
bits of their field (30_encoding R88). -/

namespace Sys2Proof

/-- The 24 host operations (30_encoding R80), the 3 IR scans (R83) and the 69 command-word steps
(43_command_words R190). Constructors carry their mnemonic, and a step its index in its script. -/
inductive Instr where
  /-- `CREATE`, host op 0x01 (45_target_interface R280). -/
  | create
  /-- `WRITE_IR`, host op 0x02 (40_scan_primitives R111). -/
  | writeIr (w : Nat) (v : Nat)
  /-- `WRITE_DR`, host op 0x03 (40_scan_primitives R113). -/
  | writeDr (w : Nat) (v : Nat)
  /-- `ENSURE_IR`, host op 0x04 (40_scan_primitives R115). -/
  | ensureIr (d : Nat)
  /-- `INVALIDATE_IR`, host op 0x05 (40_scan_primitives R116). -/
  | invalidateIr
  /-- `RUN_SCRIPT`, host op 0x06 (41_command_executor R140). -/
  | runScript (words : List Nat)
  /-- `ENTER_PROG`, host op 0x07 (42_program_mode R162). -/
  | enterProg
  /-- `EXIT_PROG`, host op 0x08 (42_program_mode R165). -/
  | exitProg
  /-- `CHIP_ERASE`, host op 0x09 (44_memory_ops R250). -/
  | chipErase
  /-- `FLASH_PAGE_WRITE`, host op 0x0A (44_memory_ops R251). -/
  | flashPageWrite (p : Nat) (data : List Nat)
  /-- `FLASH_PAGE_READ`, host op 0x0B (44_memory_ops R252). -/
  | flashPageRead (p : Nat)
  /-- `EEPROM_WRITE`, host op 0x0C (44_memory_ops R253). -/
  | eepromWrite (a : Nat) (d : Nat)
  /-- `EEPROM_READ`, host op 0x0D (44_memory_ops R254). -/
  | eepromRead (a : Nat)
  /-- `FUSE_HIGH_WRITE`, host op 0x0E (44_memory_ops R255). -/
  | fuseHighWrite (d : Nat)
  /-- `FUSE_LOW_WRITE`, host op 0x0F (44_memory_ops R256). -/
  | fuseLowWrite (d : Nat)
  /-- `LOCK_WRITE`, host op 0x10 (44_memory_ops R257). -/
  | lockWrite (d : Nat)
  /-- `FUSE_HIGH_READ`, host op 0x11 (44_memory_ops R258). -/
  | fuseHighRead
  /-- `FUSE_LOW_READ`, host op 0x12 (44_memory_ops R259). -/
  | fuseLowRead
  /-- `LOCK_READ`, host op 0x13 (44_memory_ops R260). -/
  | lockRead
  /-- `FUSES_LOCK_READ`, host op 0x14 (44_memory_ops R261). -/
  | fusesLockRead
  /-- `SIGNATURE_READ`, host op 0x15 (44_memory_ops R262). -/
  | signatureRead (idx : Nat)
  /-- `CALIBRATION_READ`, host op 0x16 (44_memory_ops R263). -/
  | calibrationRead (idx : Nat)
  /-- `READ_FLASH_RANGE`, host op 0x17 (45_target_interface R282). -/
  | readFlashRange (b : Nat) (count : Nat)
  /-- `READ_STATUS`, host op 0x18 (45_target_interface R284). -/
  | readStatus
  /-- `IR_AVR_RESET`, the IR scan of this code, reference 0xC (30_encoding R83). -/
  | irAvrReset
  /-- `IR_PROG_ENABLE`, the IR scan of this code, reference 0x4 (30_encoding R83). -/
  | irProgEnable
  /-- `IR_PROG_COMMANDS`, the IR scan of this code, reference 0x5 (30_encoding R83). -/
  | irProgCommands
  /-- `CE_SEQ[0]`, reference word 0x2380 under mask 0x7FFF (43_command_words R191). -/
  | ceSeq0
  /-- `CE_SEQ[1]`, reference word 0x3180 under mask 0x7FFF (43_command_words R191). -/
  | ceSeq1
  /-- `CE_SEQ[2]`, reference word 0x3380 under mask 0x7FFF (43_command_words R191). -/
  | ceSeq2
  /-- `CE_SEQ[3]`, reference word 0x3380 under mask 0x7FFF (43_command_words R191). -/
  | ceSeq3
  /-- `CE_POLL`, reference word 0x3380 under mask 0x7FFF (43_command_words R192). -/
  | cePoll
  /-- `FW_ENTER`, reference word 0x2310 under mask 0x7FFF (43_command_words R193). -/
  | fwEnter
  /-- `ADDR_HI`, reference word 0x0700 under mask 0x7F00 (43_command_words R194). -/
  | addrHi (a : Byte)
  /-- `ADDR_LO`, reference word 0x0300 under mask 0x7F00 (43_command_words R195). -/
  | addrLo (b : Byte)
  /-- `DATA_LO`, reference word 0x1300 under mask 0x7F00 (43_command_words R196). -/
  | dataLo (d : Byte)
  /-- `DATA_HI`, reference word 0x1700 under mask 0x7F00 (43_command_words R197). -/
  | dataHi (d : Byte)
  /-- `LATCH[0]`, reference word 0x3700 under mask 0x7FFF (43_command_words R198). -/
  | latch0
  /-- `LATCH[1]`, reference word 0x7700 under mask 0x7FFF (43_command_words R198). -/
  | latch1
  /-- `LATCH[2]`, reference word 0x3700 under mask 0x7FFF (43_command_words R198). -/
  | latch2
  /-- `FW_WRITE[0]`, reference word 0x3700 under mask 0x7FFF (43_command_words R199). -/
  | fwWrite0
  /-- `FW_WRITE[1]`, reference word 0x3500 under mask 0x7FFF (43_command_words R199). -/
  | fwWrite1
  /-- `FW_WRITE[2]`, reference word 0x3700 under mask 0x7FFF (43_command_words R199). -/
  | fwWrite2
  /-- `FW_WRITE[3]`, reference word 0x3700 under mask 0x7FFF (43_command_words R199). -/
  | fwWrite3
  /-- `FW_POLL`, reference word 0x3700 under mask 0x7FFF (43_command_words R200). -/
  | fwPoll
  /-- `FR_ENTER`, reference word 0x2302 under mask 0x7FFF (43_command_words R201). -/
  | frEnter
  /-- `FR_READ[0]`, reference word 0x3200 under mask 0x7FFF (43_command_words R202). -/
  | frRead0
  /-- `FR_READ[1]`, reference word 0x3600 under mask 0x7FFF (43_command_words R202). -/
  | frRead1
  /-- `FR_READ[2]`, reference word 0x3700 under mask 0x7FFF (43_command_words R202). -/
  | frRead2
  /-- `EW_ENTER`, reference word 0x2311 under mask 0x7FFF (43_command_words R203). -/
  | ewEnter
  /-- `EW_WRITE[0]`, reference word 0x3300 under mask 0x7FFF (43_command_words R204). -/
  | ewWrite0
  /-- `EW_WRITE[1]`, reference word 0x3100 under mask 0x7FFF (43_command_words R204). -/
  | ewWrite1
  /-- `EW_WRITE[2]`, reference word 0x3300 under mask 0x7FFF (43_command_words R204). -/
  | ewWrite2
  /-- `EW_WRITE[3]`, reference word 0x3300 under mask 0x7FFF (43_command_words R204). -/
  | ewWrite3
  /-- `EW_POLL`, reference word 0x3300 under mask 0x7FFF (43_command_words R205). -/
  | ewPoll
  /-- `ER_ENTER`, reference word 0x2303 under mask 0x7FFF (43_command_words R206). -/
  | erEnter
  /-- `ER_READ[0]`, reference word 0x3300 under mask 0x7F00 (43_command_words R207). -/
  | erRead0 (b : Byte)
  /-- `ER_READ[1]`, reference word 0x3200 under mask 0x7FFF (43_command_words R207). -/
  | erRead1
  /-- `ER_READ[2]`, reference word 0x3300 under mask 0x7FFF (43_command_words R207). -/
  | erRead2
  /-- `FU_ENTER`, reference word 0x2340 under mask 0x7FFF (43_command_words R208). -/
  | fuEnter
  /-- `FUH_WRITE[0]`, reference word 0x3700 under mask 0x7FFF (43_command_words R209). -/
  | fuhWrite0
  /-- `FUH_WRITE[1]`, reference word 0x3500 under mask 0x7FFF (43_command_words R209). -/
  | fuhWrite1
  /-- `FUH_WRITE[2]`, reference word 0x3700 under mask 0x7FFF (43_command_words R209). -/
  | fuhWrite2
  /-- `FUH_WRITE[3]`, reference word 0x3700 under mask 0x7FFF (43_command_words R209). -/
  | fuhWrite3
  /-- `FUH_POLL`, reference word 0x3700 under mask 0x7FFF (43_command_words R210). -/
  | fuhPoll
  /-- `FUL_WRITE[0]`, reference word 0x3300 under mask 0x7FFF (43_command_words R211). -/
  | fulWrite0
  /-- `FUL_WRITE[1]`, reference word 0x3100 under mask 0x7FFF (43_command_words R211). -/
  | fulWrite1
  /-- `FUL_WRITE[2]`, reference word 0x3300 under mask 0x7FFF (43_command_words R211). -/
  | fulWrite2
  /-- `FUL_WRITE[3]`, reference word 0x3300 under mask 0x7FFF (43_command_words R211). -/
  | fulWrite3
  /-- `FUL_POLL`, reference word 0x3300 under mask 0x7FFF (43_command_words R212). -/
  | fulPoll
  /-- `LK_ENTER`, reference word 0x2320 under mask 0x7FFF (43_command_words R213). -/
  | lkEnter
  /-- `LK_DATA`, reference word 0x13C0 under mask 0x7FC0 (43_command_words R214). -/
  | lkData (d : BitVec 6)
  /-- `LK_WRITE[0]`, reference word 0x3300 under mask 0x7FFF (43_command_words R215). -/
  | lkWrite0
  /-- `LK_WRITE[1]`, reference word 0x3100 under mask 0x7FFF (43_command_words R215). -/
  | lkWrite1
  /-- `LK_WRITE[2]`, reference word 0x3300 under mask 0x7FFF (43_command_words R215). -/
  | lkWrite2
  /-- `LK_WRITE[3]`, reference word 0x3300 under mask 0x7FFF (43_command_words R215). -/
  | lkWrite3
  /-- `LK_POLL`, reference word 0x3300 under mask 0x7FFF (43_command_words R216). -/
  | lkPoll
  /-- `FLR_ENTER`, reference word 0x2304 under mask 0x7FFF (43_command_words R217). -/
  | flrEnter
  /-- `FUH_READ[0]`, reference word 0x3E00 under mask 0x7FFF (43_command_words R218). -/
  | fuhRead0
  /-- `FUH_READ[1]`, reference word 0x3F00 under mask 0x7FFF (43_command_words R218). -/
  | fuhRead1
  /-- `FUL_READ[0]`, reference word 0x3200 under mask 0x7FFF (43_command_words R219). -/
  | fulRead0
  /-- `FUL_READ[1]`, reference word 0x3300 under mask 0x7FFF (43_command_words R219). -/
  | fulRead1
  /-- `LK_READ[0]`, reference word 0x3600 under mask 0x7FFF (43_command_words R220). -/
  | lkRead0
  /-- `LK_READ[1]`, reference word 0x3700 under mask 0x7FFF (43_command_words R220). -/
  | lkRead1
  /-- `FLR_ALL[0]`, reference word 0x3E00 under mask 0x7FFF (43_command_words R221). -/
  | flrAll0
  /-- `FLR_ALL[1]`, reference word 0x3200 under mask 0x7FFF (43_command_words R221). -/
  | flrAll1
  /-- `FLR_ALL[2]`, reference word 0x3600 under mask 0x7FFF (43_command_words R221). -/
  | flrAll2
  /-- `FLR_ALL[3]`, reference word 0x3700 under mask 0x7FFF (43_command_words R221). -/
  | flrAll3
  /-- `SIG_ENTER`, reference word 0x2308 under mask 0x7FFF (43_command_words R222). -/
  | sigEnter
  /-- `SIG_READ[0]`, reference word 0x3200 under mask 0x7FFF (43_command_words R223). -/
  | sigRead0
  /-- `SIG_READ[1]`, reference word 0x3300 under mask 0x7FFF (43_command_words R223). -/
  | sigRead1
  /-- `CAL_ENTER`, reference word 0x2308 under mask 0x7FFF (43_command_words R224). -/
  | calEnter
  /-- `CAL_READ[0]`, reference word 0x3600 under mask 0x7FFF (43_command_words R225). -/
  | calRead0
  /-- `CAL_READ[1]`, reference word 0x3700 under mask 0x7FFF (43_command_words R225). -/
  | calRead1
  /-- `NOP[0]`, reference word 0x2300 under mask 0x7FFF (43_command_words R226). -/
  | nop0
  /-- `NOP[1]`, reference word 0x3300 under mask 0x7FFF (43_command_words R226). -/
  | nop1
deriving DecidableEq, Repr

end Sys2Proof
end

