-- ==== Sys2Proof/WellFormed.lean ====
section
/-! DEFINITION. Which instructions are well formed as syntax. The block refuses no argument for its
form: ranges are checked by each operation (44_memory_ops R243), and over-wide values are cut
(30_encoding R91). The one bound of the data model is that of a CommandWord. -/

namespace Sys2Proof

/-- A CommandWord is "a fixed-width (≤16-bit) bit pattern" (00_scope R14, 90_conflicts C1). -/
def commandWordOk (word : Nat) : Bool := decide (word < 2 ^ 16)

/-- A host's script holds CommandWords. Every other instruction is well formed as it stands. -/
def Instr.wellFormed : Instr → Bool
  | .runScript words => words.all commandWordOk
  | _ => true

end Sys2Proof
end

