-- ==== Sys2Proof/Decode.lean ====
section
/-! DEFINITION. Decoding and encoding. What the block is given to run is a frame: a host operation
(30_encoding R80, R95: the op code and then its arguments in table order), one IR scan row (R83) or one
command-word row (R87). Words of different rows may have the same bits, and the block never decodes a
command word (43_command_words R227), so the frame of a command word names its place: the script and the
index in it (log 9, log 10). -/

namespace Sys2Proof

/-- A typed argument of a host operation (30_encoding R81): a natural or a list of naturals. -/
inductive Arg where
  | nat (n : Nat)
  | list (ns : List Nat)
deriving DecidableEq, Repr

/-- The scripts of 43_command_words R190, in its order. -/
inductive Script where
  | ceSeq
  | cePoll
  | fwEnter
  | addrHi
  | addrLo
  | dataLo
  | dataHi
  | latch
  | fwWrite
  | fwPoll
  | frEnter
  | frRead
  | ewEnter
  | ewWrite
  | ewPoll
  | erEnter
  | erRead
  | fuEnter
  | fuhWrite
  | fuhPoll
  | fulWrite
  | fulPoll
  | lkEnter
  | lkData
  | lkWrite
  | lkPoll
  | flrEnter
  | fuhRead
  | fulRead
  | lkRead
  | flrAll
  | sigEnter
  | sigRead
  | calEnter
  | calRead
  | nop
deriving DecidableEq, Repr

/-- What the block is given to run. -/
inductive Frame where
  /-- A host operation: an 8-bit op code and typed arguments (30_encoding R80, R81). -/
  | hostOp (op : Byte) (args : List Arg)
  /-- One of the block's own IR scans, by its 4-bit code (30_encoding R83; log 9). -/
  | irScan (code : BitVec 4)
  /-- One step of a script, by its place and its 15 bits (30_encoding R87; log 9, log 10). -/
  | cmdWord (script : Script) (index : Nat) (word : CmdWord)
deriving DecidableEq, Repr

/-- What a frame decodes to: an instruction, or the reason there is none. -/
inductive Decoded where
  | instr (i : Instr)
  /-- A host op code not in the table (30_encoding R82). -/
  | illegalOp (op : Byte)
  /-- A legal op code with arguments of another number or type than its operation's (log 11). -/
  | badArguments (op : Byte)
  /-- An IR code that is not one of the three the block loads (30_encoding R84). -/
  | unknownIrCode (code : BitVec 4)
  /-- A word that is not the word of the named place (43_command_words R190). -/
  | unknownCommandWord (script : Script) (index : Nat) (word : CmdWord)
deriving DecidableEq, Repr

/-! ### Host operations -/

/-- An operation without arguments. -/
def takeNone (op : Byte) (i : Instr) : List Arg → Decoded
  | [] => .instr i
  | _ => .badArguments op

/-- An operation with one natural. -/
def takeNat (op : Byte) (f : Nat → Instr) : List Arg → Decoded
  | [.nat n] => .instr (f n)
  | _ => .badArguments op

/-- An operation with two naturals. -/
def takeNats (op : Byte) (f : Nat → Nat → Instr) : List Arg → Decoded
  | [.nat n, .nat m] => .instr (f n m)
  | _ => .badArguments op

/-- An operation with a list. -/
def takeList (op : Byte) (f : List Nat → Instr) : List Arg → Decoded
  | [.list ns] => .instr (f ns)
  | _ => .badArguments op

/-- An operation with a natural and a list. -/
def takeNatList (op : Byte) (f : Nat → List Nat → Instr) : List Arg → Decoded
  | [.nat n, .list ns] => .instr (f n ns)
  | _ => .badArguments op

/-- The host-port decoder (30_encoding R80, R82). An op code that is not in the table is illegal
whatever the arguments (60_exceptions R343). -/
def decodeHostOp (op : Byte) (args : List Arg) : Decoded :=
  match op.toNat with
  | 0x01 => takeNone op .create args
  | 0x02 => takeNats op .writeIr args
  | 0x03 => takeNats op .writeDr args
  | 0x04 => takeNat op .ensureIr args
  | 0x05 => takeNone op .invalidateIr args
  | 0x06 => takeList op .runScript args
  | 0x07 => takeNone op .enterProg args
  | 0x08 => takeNone op .exitProg args
  | 0x09 => takeNone op .chipErase args
  | 0x0A => takeNatList op .flashPageWrite args
  | 0x0B => takeNat op .flashPageRead args
  | 0x0C => takeNats op .eepromWrite args
  | 0x0D => takeNat op .eepromRead args
  | 0x0E => takeNat op .fuseHighWrite args
  | 0x0F => takeNat op .fuseLowWrite args
  | 0x10 => takeNat op .lockWrite args
  | 0x11 => takeNone op .fuseHighRead args
  | 0x12 => takeNone op .fuseLowRead args
  | 0x13 => takeNone op .lockRead args
  | 0x14 => takeNone op .fusesLockRead args
  | 0x15 => takeNat op .signatureRead args
  | 0x16 => takeNat op .calibrationRead args
  | 0x17 => takeNats op .readFlashRange args
  | 0x18 => takeNone op .readStatus args
  | _ => .illegalOp op

/-! ### Scans -/

/-- The three IR codes the block loads, by their reference codes (30_encoding R83). -/
def decodeIrScan (code : BitVec 4) : Decoded :=
  match code.toNat with
  | 0xC => .instr .irAvrReset
  | 0x4 => .instr .irProgEnable
  | 0x5 => .instr .irProgCommands
  | _ => .unknownIrCode code

/-- A step whose 15 bits are all fixed (30_encoding R88, form "fixed"). -/
def fixedStep (pattern : CmdWord) (i : Instr) (word : CmdWord) : Option Instr :=
  if word = pattern then some i else none

/-- A step with an operand byte in bits 7:0 (30_encoding R87, R88). -/
def byteStep (op7 : BitVec 7) (f : Byte → Instr) (word : CmdWord) : Option Instr :=
  if word.extractLsb' 8 7 = op7 then some (f (word.extractLsb' 0 8)) else none

/-- The lock data step: bits 7:6 fixed at 1, the operand in bits 5:0 (30_encoding R88). -/
def lockStep (word : CmdWord) : Option Instr :=
  if word.extractLsb' 6 9 = 0b001001111 then some (.lkData (word.extractLsb' 0 6)) else none

/-- The rows of spec/opcode_table.json for each script: how the word at each index is read
(43_command_words R190 to R226). -/
def Script.steps : Script → List (CmdWord → Option Instr)
  | .ceSeq =>
    [fixedStep 0x2380 .ceSeq0, fixedStep 0x3180 .ceSeq1,
      fixedStep 0x3380 .ceSeq2, fixedStep 0x3380 .ceSeq3]
  | .cePoll => [fixedStep 0x3380 .cePoll]
  | .fwEnter => [fixedStep 0x2310 .fwEnter]
  | .addrHi => [byteStep 0b0000111 .addrHi]
  | .addrLo => [byteStep 0b0000011 .addrLo]
  | .dataLo => [byteStep 0b0010011 .dataLo]
  | .dataHi => [byteStep 0b0010111 .dataHi]
  | .latch => [fixedStep 0x3700 .latch0, fixedStep 0x7700 .latch1, fixedStep 0x3700 .latch2]
  | .fwWrite =>
    [fixedStep 0x3700 .fwWrite0, fixedStep 0x3500 .fwWrite1,
      fixedStep 0x3700 .fwWrite2, fixedStep 0x3700 .fwWrite3]
  | .fwPoll => [fixedStep 0x3700 .fwPoll]
  | .frEnter => [fixedStep 0x2302 .frEnter]
  | .frRead => [fixedStep 0x3200 .frRead0, fixedStep 0x3600 .frRead1, fixedStep 0x3700 .frRead2]
  | .ewEnter => [fixedStep 0x2311 .ewEnter]
  | .ewWrite =>
    [fixedStep 0x3300 .ewWrite0, fixedStep 0x3100 .ewWrite1,
      fixedStep 0x3300 .ewWrite2, fixedStep 0x3300 .ewWrite3]
  | .ewPoll => [fixedStep 0x3300 .ewPoll]
  | .erEnter => [fixedStep 0x2303 .erEnter]
  | .erRead => [byteStep 0b0110011 .erRead0, fixedStep 0x3200 .erRead1, fixedStep 0x3300 .erRead2]
  | .fuEnter => [fixedStep 0x2340 .fuEnter]
  | .fuhWrite =>
    [fixedStep 0x3700 .fuhWrite0, fixedStep 0x3500 .fuhWrite1,
      fixedStep 0x3700 .fuhWrite2, fixedStep 0x3700 .fuhWrite3]
  | .fuhPoll => [fixedStep 0x3700 .fuhPoll]
  | .fulWrite =>
    [fixedStep 0x3300 .fulWrite0, fixedStep 0x3100 .fulWrite1,
      fixedStep 0x3300 .fulWrite2, fixedStep 0x3300 .fulWrite3]
  | .fulPoll => [fixedStep 0x3300 .fulPoll]
  | .lkEnter => [fixedStep 0x2320 .lkEnter]
  | .lkData => [lockStep]
  | .lkWrite =>
    [fixedStep 0x3300 .lkWrite0, fixedStep 0x3100 .lkWrite1,
      fixedStep 0x3300 .lkWrite2, fixedStep 0x3300 .lkWrite3]
  | .lkPoll => [fixedStep 0x3300 .lkPoll]
  | .flrEnter => [fixedStep 0x2304 .flrEnter]
  | .fuhRead => [fixedStep 0x3E00 .fuhRead0, fixedStep 0x3F00 .fuhRead1]
  | .fulRead => [fixedStep 0x3200 .fulRead0, fixedStep 0x3300 .fulRead1]
  | .lkRead => [fixedStep 0x3600 .lkRead0, fixedStep 0x3700 .lkRead1]
  | .flrAll =>
    [fixedStep 0x3E00 .flrAll0, fixedStep 0x3200 .flrAll1,
      fixedStep 0x3600 .flrAll2, fixedStep 0x3700 .flrAll3]
  | .sigEnter => [fixedStep 0x2308 .sigEnter]
  | .sigRead => [fixedStep 0x3200 .sigRead0, fixedStep 0x3300 .sigRead1]
  | .calEnter => [fixedStep 0x2308 .calEnter]
  | .calRead => [fixedStep 0x3600 .calRead0, fixedStep 0x3700 .calRead1]
  | .nop => [fixedStep 0x2300 .nop0, fixedStep 0x3300 .nop1]

/-- The instruction that a word is at a place of the table. -/
def decodeCommandWord (script : Script) (index : Nat) (word : CmdWord) : Decoded :=
  match script.steps[index]? with
  | some read =>
    match read word with
    | some i => .instr i
    | none => .unknownCommandWord script index word
  | none => .unknownCommandWord script index word

/-- The decoder, total on frames. -/
def decode : Frame → Decoded
  | .hostOp op args => decodeHostOp op args
  | .irScan code => decodeIrScan code
  | .cmdWord script index word => decodeCommandWord script index word

/-! ### The encoder -/

/-- `base | zext_15(operand_byte)` (30_encoding R90). -/
def wordWith (base : CmdWord) (operand : Byte) : CmdWord := base ||| operand.setWidth 15

/-- The frame of an instruction, from the same tables (30_encoding R80, R83, R87 to R90). -/
def encode : Instr → Frame
  | .create => .hostOp 0x01 []
  | .writeIr w v => .hostOp 0x02 [.nat w, .nat v]
  | .writeDr w v => .hostOp 0x03 [.nat w, .nat v]
  | .ensureIr d => .hostOp 0x04 [.nat d]
  | .invalidateIr => .hostOp 0x05 []
  | .runScript words => .hostOp 0x06 [.list words]
  | .enterProg => .hostOp 0x07 []
  | .exitProg => .hostOp 0x08 []
  | .chipErase => .hostOp 0x09 []
  | .flashPageWrite p data => .hostOp 0x0A [.nat p, .list data]
  | .flashPageRead p => .hostOp 0x0B [.nat p]
  | .eepromWrite a d => .hostOp 0x0C [.nat a, .nat d]
  | .eepromRead a => .hostOp 0x0D [.nat a]
  | .fuseHighWrite d => .hostOp 0x0E [.nat d]
  | .fuseLowWrite d => .hostOp 0x0F [.nat d]
  | .lockWrite d => .hostOp 0x10 [.nat d]
  | .fuseHighRead => .hostOp 0x11 []
  | .fuseLowRead => .hostOp 0x12 []
  | .lockRead => .hostOp 0x13 []
  | .fusesLockRead => .hostOp 0x14 []
  | .signatureRead idx => .hostOp 0x15 [.nat idx]
  | .calibrationRead idx => .hostOp 0x16 [.nat idx]
  | .readFlashRange b count => .hostOp 0x17 [.nat b, .nat count]
  | .readStatus => .hostOp 0x18 []
  | .irAvrReset => .irScan 0xC
  | .irProgEnable => .irScan 0x4
  | .irProgCommands => .irScan 0x5
  | .ceSeq0 => .cmdWord .ceSeq 0 0x2380
  | .ceSeq1 => .cmdWord .ceSeq 1 0x3180
  | .ceSeq2 => .cmdWord .ceSeq 2 0x3380
  | .ceSeq3 => .cmdWord .ceSeq 3 0x3380
  | .cePoll => .cmdWord .cePoll 0 0x3380
  | .fwEnter => .cmdWord .fwEnter 0 0x2310
  | .addrHi a => .cmdWord .addrHi 0 (wordWith 0x0700 a)
  | .addrLo b => .cmdWord .addrLo 0 (wordWith 0x0300 b)
  | .dataLo d => .cmdWord .dataLo 0 (wordWith 0x1300 d)
  | .dataHi d => .cmdWord .dataHi 0 (wordWith 0x1700 d)
  | .latch0 => .cmdWord .latch 0 0x3700
  | .latch1 => .cmdWord .latch 1 0x7700
  | .latch2 => .cmdWord .latch 2 0x3700
  | .fwWrite0 => .cmdWord .fwWrite 0 0x3700
  | .fwWrite1 => .cmdWord .fwWrite 1 0x3500
  | .fwWrite2 => .cmdWord .fwWrite 2 0x3700
  | .fwWrite3 => .cmdWord .fwWrite 3 0x3700
  | .fwPoll => .cmdWord .fwPoll 0 0x3700
  | .frEnter => .cmdWord .frEnter 0 0x2302
  | .frRead0 => .cmdWord .frRead 0 0x3200
  | .frRead1 => .cmdWord .frRead 1 0x3600
  | .frRead2 => .cmdWord .frRead 2 0x3700
  | .ewEnter => .cmdWord .ewEnter 0 0x2311
  | .ewWrite0 => .cmdWord .ewWrite 0 0x3300
  | .ewWrite1 => .cmdWord .ewWrite 1 0x3100
  | .ewWrite2 => .cmdWord .ewWrite 2 0x3300
  | .ewWrite3 => .cmdWord .ewWrite 3 0x3300
  | .ewPoll => .cmdWord .ewPoll 0 0x3300
  | .erEnter => .cmdWord .erEnter 0 0x2303
  | .erRead0 b => .cmdWord .erRead 0 (wordWith 0x3300 b)
  | .erRead1 => .cmdWord .erRead 1 0x3200
  | .erRead2 => .cmdWord .erRead 2 0x3300
  | .fuEnter => .cmdWord .fuEnter 0 0x2340
  | .fuhWrite0 => .cmdWord .fuhWrite 0 0x3700
  | .fuhWrite1 => .cmdWord .fuhWrite 1 0x3500
  | .fuhWrite2 => .cmdWord .fuhWrite 2 0x3700
  | .fuhWrite3 => .cmdWord .fuhWrite 3 0x3700
  | .fuhPoll => .cmdWord .fuhPoll 0 0x3700
  | .fulWrite0 => .cmdWord .fulWrite 0 0x3300
  | .fulWrite1 => .cmdWord .fulWrite 1 0x3100
  | .fulWrite2 => .cmdWord .fulWrite 2 0x3300
  | .fulWrite3 => .cmdWord .fulWrite 3 0x3300
  | .fulPoll => .cmdWord .fulPoll 0 0x3300
  | .lkEnter => .cmdWord .lkEnter 0 0x2320
  | .lkData d => .cmdWord .lkData 0 (wordWith 0x13C0 (d.setWidth 8))
  | .lkWrite0 => .cmdWord .lkWrite 0 0x3300
  | .lkWrite1 => .cmdWord .lkWrite 1 0x3100
  | .lkWrite2 => .cmdWord .lkWrite 2 0x3300
  | .lkWrite3 => .cmdWord .lkWrite 3 0x3300
  | .lkPoll => .cmdWord .lkPoll 0 0x3300
  | .flrEnter => .cmdWord .flrEnter 0 0x2304
  | .fuhRead0 => .cmdWord .fuhRead 0 0x3E00
  | .fuhRead1 => .cmdWord .fuhRead 1 0x3F00
  | .fulRead0 => .cmdWord .fulRead 0 0x3200
  | .fulRead1 => .cmdWord .fulRead 1 0x3300
  | .lkRead0 => .cmdWord .lkRead 0 0x3600
  | .lkRead1 => .cmdWord .lkRead 1 0x3700
  | .flrAll0 => .cmdWord .flrAll 0 0x3E00
  | .flrAll1 => .cmdWord .flrAll 1 0x3200
  | .flrAll2 => .cmdWord .flrAll 2 0x3600
  | .flrAll3 => .cmdWord .flrAll 3 0x3700
  | .sigEnter => .cmdWord .sigEnter 0 0x2308
  | .sigRead0 => .cmdWord .sigRead 0 0x3200
  | .sigRead1 => .cmdWord .sigRead 1 0x3300
  | .calEnter => .cmdWord .calEnter 0 0x2308
  | .calRead0 => .cmdWord .calRead 0 0x3600
  | .calRead1 => .cmdWord .calRead 1 0x3700
  | .nop0 => .cmdWord .nop 0 0x2300
  | .nop1 => .cmdWord .nop 1 0x3300

/-! ### Bare words, for the host's tick of the opcode table -/

/-- All scripts, in the table's order. -/
def allScripts : List Script :=
  [.ceSeq, .cePoll, .fwEnter, .addrHi, .addrLo, .dataLo, .dataHi, .latch, .fwWrite, .fwPoll,
    .frEnter, .frRead, .ewEnter, .ewWrite, .ewPoll, .erEnter, .erRead, .fuEnter, .fuhWrite,
    .fuhPoll, .fulWrite, .fulPoll, .lkEnter, .lkData, .lkWrite, .lkPoll, .flrEnter, .fuhRead,
    .fulRead, .lkRead, .flrAll, .sigEnter, .sigRead, .calEnter, .calRead, .nop]

/-- The first answer that some reader of a list gives. -/
def firstRead (word : CmdWord) : List (CmdWord → Option Instr) → Option Instr
  | [] => none
  | read :: rest =>
    match read word with
    | some i => some i
    | none => firstRead word rest

/-- The rows without an operand. -/
def fixedSteps : List (CmdWord → Option Instr) :=
  (allScripts.filter fun sc =>
    !([.addrHi, .addrLo, .dataLo, .dataHi, .lkData, .erRead] : List Script).contains sc).flatMap
      Script.steps

/-- The rows with an operand, the narrowest field first. -/
def operandSteps : List (CmdWord → Option Instr) :=
  [lockStep] ++ ([.addrHi, .addrLo, .dataLo, .dataHi, .erRead] : List Script).flatMap Script.steps

/-- A command word without its place: of the rows with these bits, the first one with the most fixed
bits (log 10). Such rows differ in name only: the block shifts the same bits (43_command_words R227). -/
def bareCommandWord (word : CmdWord) : Frame :=
  match firstRead word (fixedSteps ++ operandSteps) with
  | some i => encode i
  | none => .cmdWord .nop 0 word

/-- Arguments of zeros for an op code: naturals 0 and empty lists. -/
def zeroArgs (op : Byte) : List Arg :=
  match encodeArity op.toNat with
  | (n, false) => List.replicate n (.nat 0)
  | (n, true) => List.replicate n (.nat 0) ++ [.list []]
where
  /-- How many naturals an operation takes, and whether a list follows them (30_encoding R80). -/
  encodeArity : Nat → Nat × Bool
    | 0x02 => (2, false)
    | 0x03 => (2, false)
    | 0x04 => (1, false)
    | 0x06 => (0, true)
    | 0x0A => (1, true)
    | 0x0B => (1, false)
    | 0x0C => (2, false)
    | 0x0D => (1, false)
    | 0x0E => (1, false)
    | 0x0F => (1, false)
    | 0x10 => (1, false)
    | 0x15 => (1, false)
    | 0x16 => (1, false)
    | 0x17 => (2, false)
    | _ => (0, false)

/-- The frame of an opcode-table word by its row's width (log 10): up to 4 bits an IR code, up to 8 bits
a host op code with arguments of zeros, else a command word. -/
def tableFrame (nbits w : Nat) : Frame :=
  if nbits ≤ 4 then .irScan (BitVec.ofNat 4 w)
  else if nbits ≤ 8 then .hostOp (BitVec.ofNat 8 w) (zeroArgs (BitVec.ofNat 8 w))
  else bareCommandWord (BitVec.ofNat 15 w)

/-- The instruction the decoder reads from the bits of an opcode-table row. -/
def decodeTableWord (nbits w : Nat) : Option Instr :=
  match decode (tableFrame nbits w) with
  | .instr i => some i
  | _ => none

end Sys2Proof
end

