-- ==== Sys2Proof/Machine/Launch.lean ====
section
/-! DEFINITION. The reference values of the launch parameters (00_scope R9; 43_command_words R190) and
the constraints a configuration must meet. The reference values are the spec's defaults and not the
document's: "a model takes them as a default argument and must not treat as sourced" (log 5). -/

namespace Sys2Proof.Machine

/-- The reference command-word table (43_command_words R190 to R226). -/
def referenceCmd : Cmd where
  ceSeq := ⟨0x2380, 0x3180, 0x3380, 0x3380⟩
  cePoll := 0x3380
  fwEnter := 0x2310
  addrHi := 0x0700
  addrLo := 0x0300
  dataLo := 0x1300
  dataHi := 0x1700
  latch := ⟨0x3700, 0x7700, 0x3700⟩
  fwWrite := ⟨0x3700, 0x3500, 0x3700, 0x3700⟩
  fwPoll := 0x3700
  frEnter := 0x2302
  frRead := ⟨0x3200, 0x3600, 0x3700⟩
  ewEnter := 0x2311
  ewWrite := ⟨0x3300, 0x3100, 0x3300, 0x3300⟩
  ewPoll := 0x3300
  erEnter := 0x2303
  erRead := ⟨0x3300, 0x3200, 0x3300⟩
  fuEnter := 0x2340
  fuhWrite := ⟨0x3700, 0x3500, 0x3700, 0x3700⟩
  fuhPoll := 0x3700
  fulWrite := ⟨0x3300, 0x3100, 0x3300, 0x3300⟩
  fulPoll := 0x3300
  lkEnter := 0x2320
  lkData := 0x13C0
  lkWrite := ⟨0x3300, 0x3100, 0x3300, 0x3300⟩
  lkPoll := 0x3300
  flrEnter := 0x2304
  fuhRead := ⟨0x3E00, 0x3F00⟩
  fulRead := ⟨0x3200, 0x3300⟩
  lkRead := ⟨0x3600, 0x3700⟩
  flrAll := ⟨0x3E00, 0x3200, 0x3600, 0x3700⟩
  sigEnter := 0x2308
  sigRead := ⟨0x3200, 0x3300⟩
  calEnter := 0x2308
  calRead := ⟨0x3600, 0x3700⟩
  nop := ⟨0x2300, 0x3300⟩

/-- The reference configuration (00_scope R9) around the three parameters the spec leaves OPEN. -/
def referenceConfig (tapBound : Bool) (tapIrLen pollBudget : Nat) : Config where
  tapBound := tapBound
  tapIrLen := tapIrLen
  pollBudget := pollBudget
  irAvrReset := 0xC
  irProgEnable := 0x4
  irProgCommands := 0x5
  resetDrWidth := 1
  resetAssert := 1
  resetRelease := 0
  enableDrWidth := 16
  enableSignature := 0xA370
  disablePattern := 0x0000
  busyBit := 9
  flashWords := 16384
  pageWords := 64
  eepromBytes := 1024
  sigBytes := 3
  calBytes := 4
  cmd := referenceCmd

/-- The configuration of the clean launch: the reference one, the OPEN parameters free (log 4, log 5). -/
def launchConfig : Config :=
  referenceConfig Config.openTapBound (Config.openTapIrLen + 1) (Config.openPollBudget + 1)

/-- `PAGE_WORDS` is a power of two from 1 to 256 (00_scope R9). -/
def pageWordsOk (n : Nat) : Bool :=
  ([1, 2, 4, 8, 16, 32, 64, 128, 256] : List Nat).contains n

/-- The constraints of 00_scope R9. "A configuration that breaks one is refused" (log 12). -/
def configOk (c : Config) : Bool :=
  c.pollBudget != 0 && (pageWordsOk c.pageWords && (c.flashWords % c.pageWords == 0
    && (decide (c.flashWords ≤ 65536) && (decide (c.eepromBytes ≤ 65536)
    && ((decide (1 ≤ c.sigBytes) && decide (c.sigBytes ≤ 256))
    && ((decide (1 ≤ c.calBytes) && decide (c.calBytes ≤ 256))
    && (decide (c.busyBit ≤ 14) && (c.tapIrLen != 0
    && (decide (c.irAvrReset < 2 ^ irWidth) && (decide (c.irProgEnable < 2 ^ irWidth)
    && (decide (c.irProgCommands < 2 ^ irWidth)
    && ((decide (1 ≤ c.resetDrWidth) && decide (c.resetDrWidth ≤ drMaxWidth))
    && (decide (1 ≤ c.enableDrWidth) && decide (c.enableDrWidth ≤ drMaxWidth))))))))))))))

end Sys2Proof.Machine
end

