-- ==== Sys2Proof/Machine/Memory.lean ====
section
/-! DEFINITION. The reference device's flash and EEPROM as sparse bytes in one canonical form: addresses
strictly rising, no cell that reads as erased. A cell that is not listed reads 0xFF, the test default of
47_reference_device R301 (log 22). -/

namespace Sys2Proof.Machine

/-- Bytes by address. -/
abbrev Memory := List Host.Cell

/-- What an unlisted byte reads as: erased (47_reference_device R301, log 22). -/
def erased : Byte := 0xFF

/-- The byte at an address. -/
def Memory.read (a : Nat) : Memory → Byte
  | [] => erased
  | (k, v) :: rest => if k = a then v else Memory.read a rest

/-- A cell in front of a list, unless it reads as erased. -/
def Memory.cons (a : Nat) (b : Byte) (m : Memory) : Memory :=
  if b = erased then m else (a, b) :: m

/-- The memory with one byte stored, in canonical form. -/
def Memory.write (a : Nat) (b : Byte) : Memory → Memory
  | [] => Memory.cons a b []
  | (k, v) :: rest =>
    if a < k then Memory.cons a b ((k, v) :: rest)
    else if a = k then Memory.cons a b rest
    else (k, v) :: Memory.write a b rest

/-- The canonical form. -/
abbrev Memory.wf (m : Memory) : Prop :=
  m.Pairwise (fun x y => x.1 < y.1) ∧ ∀ c ∈ m, c.2 ≠ erased

/-- Flash word `wa`: byte `2*wa` is its low byte, byte `2*wa + 1` its high byte (20_memory R52, R53). -/
def Memory.readWord (wa : Nat) (m : Memory) : Half :=
  Memory.read (2 * wa + 1) m ++ Memory.read (2 * wa) m

/-- Store a flash word, low byte first (20_memory R52, R53). -/
def Memory.writeWord (wa : Nat) (v : Half) (m : Memory) : Memory :=
  Memory.write (2 * wa + 1) (v.extractLsb' 8 8) (Memory.write (2 * wa) (v.extractLsb' 0 8) m)

/-- Store consecutive flash words from word `wa` on. -/
def Memory.writeWords (wa : Nat) : List Half → Memory → Memory
  | [], m => m
  | v :: vs, m => Memory.writeWords (wa + 1) vs (Memory.writeWord wa v m)

end Sys2Proof.Machine
end

