-- ==== Sys2Proof/Machine/Device.lean ====
section
/-! DEFINITION. The reference device of 47_reference_device: the target side as data, with its registers
(10_state R32 to R36) and memories (20_memory R50), and what one scan does to it. It is one environment
among all that the block must accept (log 7). -/

namespace Sys2Proof.Machine

/-- The programming sub-mode (47_reference_device R307). -/
inductive SubMode where
  | none
  | chipErase
  | flashWrite
  | flashRead
  | eepromWrite
  | eepromRead
  | fuseWrite
  | lockWrite
  | fuseLockRead
  | sigCalRead
deriving DecidableEq, Repr

/-- A count of busy responses: a natural or `INF` (47_reference_device R300, R301). -/
inductive BusyCount where
  | finite (n : Nat)
  | inf
deriving DecidableEq, Repr

/-- The reference device state `D` (47_reference_device R300), with its parameter `BUSY_K` (R301). -/
structure Device where
  /-- The TAP instruction register (10_state R32). -/
  ir : BitVec 4
  /-- Target reset asserted (10_state R33). -/
  reset : Bool
  /-- Programming enabled (10_state R34). -/
  prog : Bool
  /-- The pipeline response register (10_state R36). -/
  resp : CmdWord
  mode : SubMode
  ah : Byte
  al : Byte
  dl : Byte
  dh : Byte
  /-- The EEPROM data latch. -/
  eel : Byte
  /-- The flash page buffer, `PAGE_WORDS` words. -/
  pagebuf : List Half
  /-- Words left in a write strobe after the pulse word. -/
  trig : Nat
  /-- Busy responses still to give. -/
  rem : BusyCount
  flash : Memory
  eeprom : Memory
  fuseHi : Byte
  fuseLo : Byte
  lock : BitVec 6
  /-- The signature bytes, read-only. -/
  sig : List Byte
  /-- The calibration bytes, read-only. -/
  cal : List Byte
  /-- `BUSY_K`, a parameter: no scan changes it. -/
  busyK : BusyCount
deriving DecidableEq, Repr

/-- The initial device (47_reference_device R300) with the test defaults of R301, for a page size. -/
def Device.initial (pageWords : Nat) : Device where
  ir := 0xF
  reset := false
  prog := false
  resp := 0x0000
  mode := .none
  ah := 0x00
  al := 0x00
  dl := 0x00
  dh := 0x00
  eel := 0xFF
  pagebuf := List.replicate pageWords 0xFFFF
  trig := 0
  rem := .finite 0
  flash := []
  eeprom := []
  fuseHi := 0x99
  fuseLo := 0xE1
  lock := 0x3F
  sig := [0x1E, 0x95, 0x02]
  cal := [0xA1, 0xA2, 0xA3, 0xA4]
  busyK := .finite 0

/-! ### Addresses -/

/-- `(D.ah << 8) | D.al` (47_reference_device R308). -/
def Device.address (d : Device) : Nat := (d.ah ++ d.al).toNat

/-- `a mod b` of a space of `b` cells. For `b = 0`, which 00_scope R9 admits and where 00_scope R11 gives
`mod` no value, a free value of the address (log 26). -/
def addressIn (b a : Nat) : Nat := if b = 0 then Config.emptySpaceAddress a else a % b

/-- The word address `WA` (47_reference_device R308; with `FLASH_WORDS` = 0 a free value, log 26). -/
def Device.wordAddress (c : Config) (d : Device) : Nat := addressIn c.flashWords d.address

/-- The EEPROM address `EA` (47_reference_device R308; with `EEPROM_BYTES` = 0 a free value, log 26). -/
def Device.eepromAddress (c : Config) (d : Device) : Nat := addressIn c.eepromBytes d.address

/-! ### The programming-command pipeline -/

/-- The fixed opcode `OP7` of a command word (30_encoding R87). -/
def wordOp7 (w : CmdWord) : BitVec 7 := w.extractLsb' 8 7

/-- The operand byte `OPND` of a command word (30_encoding R87). -/
def wordOpnd (w : CmdWord) : Byte := w.extractLsb' 0 8

/-- The sub-mode that an enter word selects (47_reference_device R307). -/
def subModeOf (b : Byte) : SubMode :=
  if b = 0x80 then .chipErase
  else if b = 0x10 then .flashWrite
  else if b = 0x02 then .flashRead
  else if b = 0x11 then .eepromWrite
  else if b = 0x03 then .eepromRead
  else if b = 0x40 then .fuseWrite
  else if b = 0x20 then .lockWrite
  else if b = 0x04 then .fuseLockRead
  else if b = 0x08 then .sigCalRead
  else .none

/-- Start of a write strobe: two words follow the pulse (47_reference_device R310). -/
def Device.strobe (d : Device) : Device := { d with trig := 2 }

/-- The flash commit: the page buffer goes to the page of the loaded address and is then erased
(47_reference_device R310). -/
def Device.commitPage (c : Config) (d : Device) : Device :=
  let wa := d.wordAddress c
  { d with
    flash := Memory.writeWords (wa - wa % c.pageWords) d.pagebuf d.flash
    pagebuf := List.replicate c.pageWords 0xFFFF }

/-- The pulse words and what each commits (47_reference_device R310). -/
def Device.pulse (c : Config) (w : CmdWord) (d : Device) : Device :=
  match d.mode with
  | .chipErase =>
    if w = 0x3180 then
      Device.strobe { d with flash := [], eeprom := [], lock := 0x3F } else d
  | .flashWrite => if w = 0x3500 then Device.strobe (d.commitPage c) else d
  | .eepromWrite =>
    if w = 0x3100 then
      Device.strobe { d with eeprom := Memory.write (d.eepromAddress c) d.eel d.eeprom } else d
  | .fuseWrite =>
    if w = 0x3500 then Device.strobe { d with fuseHi := d.dl }
    else if w = 0x3100 then Device.strobe { d with fuseLo := d.dl } else d
  | .lockWrite =>
    if w = 0x3100 then Device.strobe { d with lock := d.dl.extractLsb' 0 6 } else d
  | _ => d

/-- The latch word (47_reference_device R309). -/
def Device.latch (c : Config) (d : Device) : Device :=
  match d.mode with
  | .flashWrite =>
    { d with pagebuf := d.pagebuf.set (d.wordAddress c % c.pageWords) (d.dh ++ d.dl) }
  | .eepromWrite => { d with eel := d.dl }
  | _ => d

/-- `effect(w)` (47_reference_device R307 to R310). -/
def Device.effect (c : Config) (w : CmdWord) (d : Device) : Device :=
  if wordOp7 w = 0x23 then { d with mode := subModeOf (wordOpnd w), trig := 0 }
  else if wordOp7 w = 0x07 then { d with ah := wordOpnd w }
  else if wordOp7 w = 0x03 then { d with al := wordOpnd w }
  else if wordOp7 w = 0x13 then { d with dl := wordOpnd w }
  else if wordOp7 w = 0x17 then { d with dh := wordOpnd w }
  else if wordOp7 w = 0x33 ∧ d.mode = .eepromRead then { d with al := wordOpnd w }
  else if w = 0x7700 then d.latch c
  else d.pulse c w

/-- The read data of a word, computed after its effect (47_reference_device R311). -/
def Device.readData (c : Config) (w : CmdWord) (d : Device) : Byte :=
  match d.mode with
  | .flashRead =>
    if w = 0x3200 then (Memory.readWord (d.wordAddress c) d.flash).extractLsb' 0 8
    else if w = 0x3600 then (Memory.readWord (d.wordAddress c) d.flash).extractLsb' 8 8
    else 0x00
  | .eepromRead => if w = 0x3200 then Memory.read (d.eepromAddress c) d.eeprom else 0x00
  | .fuseLockRead =>
    if w = 0x3E00 then d.fuseHi
    else if w = 0x3200 then d.fuseLo
    else if w = 0x3600 then 0xC0 ||| d.lock.setWidth 8
    else 0x00
  | .sigCalRead =>
    if w = 0x3200 then
      if d.al.toNat < c.sigBytes then d.sig.getD d.al.toNat 0xFF else 0xFF
    else if w = 0x3600 then
      if d.al.toNat < c.calBytes then d.cal.getD d.al.toNat 0xFF else 0xFF
    else 0x00
  | _ => 0x00

/-- `D.rem > 0`, with `INF` above every natural (47_reference_device R301, R306). -/
def BusyCount.positive : BusyCount → Bool
  | .finite n => n != 0
  | .inf => true

/-- `D.rem - 1`, with `INF - 1 = INF` (47_reference_device R301). -/
def BusyCount.pred : BusyCount → BusyCount
  | .finite n => .finite (n - 1)
  | .inf => .inf

/-- The strobe and busy counters at a word (47_reference_device R306, before the effect). -/
def Device.tick (d : Device) : Device :=
  if d.trig ≠ 0 then
    if d.trig - 1 = 0 then { d with trig := 0, rem := d.busyK } else { d with trig := d.trig - 1 }
  else if d.rem.positive then { d with rem := d.rem.pred }
  else d

/-- The device still busy (47_reference_device R306, after the effect). -/
def Device.busy (d : Device) : Bool := d.trig != 0 || d.rem.positive

/-- `D.resp` after a word: the busy bit and the read data (47_reference_device R306). -/
def Device.response (c : Config) (w : CmdWord) (d : Device) : CmdWord :=
  (if d.busy then BitVec.ofNat 15 (2 ^ c.busyBit) else 0) ||| (d.readData c w).setWidth 15

/-- The device after one command word: `step(w)` without its answer (47_reference_device R306). -/
def Device.shift (c : Config) (w : CmdWord) (d : Device) : Device :=
  let d' := (d.tick).effect c w
  { d' with resp := d'.response c w }

/-! ### Scans -/

/-- The enable register (47_reference_device R305; log 21). -/
def Device.enable (c : Config) (v : Nat) (d : Device) : Device :=
  if v = c.enableSignature ∧ d.reset = true then { d with prog := true, mode := .none }
  else if v = c.disablePattern then
    { d with prog := false, mode := .none, trig := 0, rem := .finite 0 }
  else d

/-- An IR scan (47_reference_device R302): the captured value is `0b0001`. -/
def Device.scanIr (v : Nat) (d : Device) : Nat × Device :=
  (1, { d with ir := BitVec.ofNat 4 v })

/-- A DR scan: the register depends on `D.ir` (47_reference_device R303 to R306). -/
def Device.scanDr (c : Config) (v : Nat) (d : Device) : Nat × Device :=
  if d.ir.toNat = c.irAvrReset then (0, { d with reset := trunc 1 v == c.resetAssert })
  else if d.ir.toNat = c.irProgEnable then (0, d.enable c v)
  else if d.ir.toNat = c.irProgCommands then
    if d.prog then (d.resp.toNat, d.shift c (BitVec.ofNat 15 v)) else (0, d)
  else (0, d)

end Sys2Proof.Machine
end

