-- ==== Sys2Proof/Machine/State.lean ====
section
/-! DEFINITION. The state of the machine as plain data: the block's state record, its transient working
state, the host port, the launch configuration and the environment. INVENTORY.md lists each field with
its rule and its reset value. -/

namespace Sys2Proof.Machine

/-- The Instruction Cache (10_state R21). -/
inductive IrCache where
  /-- The block cannot say what the instruction register holds. -/
  | unknown
  /-- The last value the block loaded, zero-extended to `IR_MAX_WIDTH` = 8 bits. -/
  | known (v : BitVec 8)
deriving DecidableEq, Repr

/-- The Program-Mode Controller state (10_state R23; 90_conflicts C8). -/
inductive Pm where
  | idle
  | resetAsserted
  | programEnabled
  | commandsActive
  | programDisabled
  | resetReleased
  | error
deriving DecidableEq, Repr

/-- A scan request: `IR(w, v)` or `DR(w, v)` (00_scope R6, R11). -/
inductive Scan where
  | ir (w v : Nat)
  | dr (w v : Nat)
deriving DecidableEq, Repr

/-- The error kinds (60_exceptions R340). -/
inductive ErrKind where
  | invalidTap
  | widthMismatch
  | widthOverflow
  | alreadyActive
  | timeout
  /-- Carries the transport's own error value unchanged. -/
  | transport (e : TransportError)
  | notActive
  | badArgument
  | illegalOp
deriving DecidableEq, Repr

/-- The error record beside the kind (60_exceptions R341). The transport's value stands in the kind. -/
structure ErrInfo where
  /-- `partial`: the captures before the failing word, for `RUN_SCRIPT` only. -/
  partialCaps : Option (List CmdWord) := none
  /-- `polls`: the poll count, for a failure during or at the end of a busy-poll. -/
  polls : Option Nat := none
  /-- `op`: the illegal op code. -/
  op : Option Byte := none
deriving DecidableEq, Repr

/-- The result data of an operation that ended in `Ok` (30_encoding R80). -/
inductive OkData where
  /-- `[]`. -/
  | empty
  /-- The capture of a raw DR scan, its bits above the scan's width 0 (log 18). -/
  | capture (c : BitVec 32)
  /-- The captures of a script. -/
  | captures (cs : List CmdWord)
  /-- Bytes read from the target. -/
  | bytes (bs : List Byte)
  /-- The STATUS word. -/
  | status (v : Half)
deriving DecidableEq, Repr

/-- How a host operation ended (00_scope R13). -/
inductive Result where
  | ok (data : OkData)
  | err (kind : ErrKind) (info : ErrInfo)
deriving DecidableEq, Repr

/-- What comes in at the host port (00_scope R7). -/
inductive Input where
  /-- A host operation, or one scan row of the opcode table (log 9). -/
  | frame (f : Frame)
  /-- The environment event `ADAPTER_RESET` (60_exceptions R346). -/
  | adapterReset
  /-- A reset of the block (70_reset_and_hazards R370, R372; log 19). -/
  | blockReset
deriving DecidableEq, Repr

/-- Which environment answers the scans, with its inputs. -/
inductive Link where
  /-- Any transport and target (00_scope R11): first the answers supplied here, one a scan, then free
  draws. `drawn` counts the scans answered, so that each draw is a fresh free value (log 6). -/
  | free (supplied : List Answer) (drawn : Nat)
  /-- The reference device held in `target` (47_reference_device). Each scan takes the head of the list:
  `some e` makes the scan answer `Err(e)` (R312), `none` or an empty list runs it. -/
  | reference (inject : List (Option TransportError))
deriving DecidableEq, Repr

/-- The machine. -/
structure State where
  /-- `S.ir_cache` (10_state R20, R21). -/
  irCache : IrCache
  /-- `S.pm` (10_state R20, R23). -/
  pm : Pm
  /-- `S.device` (10_state R20, R25). -/
  device : Bool
  /-- Which host operation is running: with `pos` the sequencer position; none between operations
  (10_state R28, R37). A scan row run as an instruction counts as one (log 9). -/
  running : Option Instr
  /-- The sequencer position: how many scan requests the operation has issued (10_state R28). -/
  pos : Nat
  /-- The capture list of the running script (10_state R20, 41_command_executor R140). -/
  caps : List CmdWord
  /-- The poll counter (10_state R27). -/
  polls : Nat
  /-- Pending inputs, the next one first (log 2). -/
  port : List Input
  /-- The scan trace of the running operation, or of the last one (00_scope R6; log 13). -/
  trace : List Scan
  /-- The result of the last operation; none while one runs and before the first (00_scope R13; log 13). -/
  result : Option Result
  /-- The launch configuration (00_scope R8, R9; log 3). -/
  cfg : Config
  /-- The environment in force (log 6). -/
  link : Link
  /-- The target side as the reference device (47_reference_device R300; log 7). -/
  target : Device
deriving DecidableEq, Repr

/-- An operation is in progress (10_state R28, R37). -/
def State.active (s : State) : Bool := s.running.isSome

/-- Why the machine stops. -/
inductive Fault where
  /-- Raised by `step` in a state whose operation waits for a scan that is never answered: "The
  operation is stuck: it has no result" (60_exceptions R347; log 8). Safe: the machine takes no further
  input, and no error is invented. -/
  | scanUnanswered
deriving DecidableEq, Repr

/-- What the machine does not run. -/
inductive Refusal where
  /-- Raised by an arm of `exec` for an instruction without a meaning; no arm does. Safe. -/
  | notModelled (mnemonic : String)
  /-- Raised by `step` for a configuration that breaks a constraint of 00_scope R9: "A configuration
  that breaks one is refused" (log 12). Safe. -/
  | badConfiguration
  /-- Raised by `step` for a legal op code with arguments of another number or type than the operation
  takes; the host port is typed (30_encoding R81; log 11). Safe. -/
  | badArguments (op : Byte)
  /-- Raised by `step` for a bare IR scan row with a code that is no row of the table; such a code is
  reached by `WRITE_IR` (30_encoding R84; log 10). Safe. -/
  | unknownIrCode (code : BitVec 4)
  /-- Raised by `step` for a bare command-word row that is not its place's word; any word is reached by
  `RUN_SCRIPT` (30_encoding R94; log 10). Safe. -/
  | unknownCommandWord (script : Script) (index : Nat) (word : CmdWord)
deriving DecidableEq, Repr

/-- The clean launch under a configuration and an environment (10_state R37, 70_reset_and_hazards R370). -/
def State.launch (cfg : Config) (link : Link) (target : Device) : State where
  irCache := .unknown
  pm := .idle
  device := false
  running := none
  pos := 0
  caps := []
  polls := 0
  port := []
  trace := []
  result := none
  cfg := cfg
  link := link
  target := target

/-- The machine right after reset (70_reset_and_hazards R370): the clean launch under the launch
configuration, with the free environment and nothing supplied. -/
def State.reset : State :=
  State.launch launchConfig (.free [] 0) (Device.initial launchConfig.pageWords)

end Sys2Proof.Machine
end

