-- ==== Sys2Proof/Machine/Flags.lean ====
section
/-! DEFINITION. The flag, the status word and the numeric codes: the BusyFlag of a capture
(10_state R26), STATUS (R31), the session flag (R24), and the codes of states and errors. -/

namespace Sys2Proof.Machine

/-- The BusyFlag of a capture: the target is busy iff `c[BUSY_BIT] = BUSY_LEVEL` (10_state R26,
30_encoding R89; 90_conflicts C2, C3). -/
def busyFlag (cfg : Config) (c : CmdWord) : Bool := c.getLsbD cfg.busyBit == busyLevel

/-- The code of a controller state (10_state R23). -/
def Pm.code : Pm → BitVec 3
  | .idle => 0
  | .resetAsserted => 1
  | .programEnabled => 2
  | .commandsActive => 3
  | .programDisabled => 4
  | .resetReleased => 5
  | .error => 6

/-- The ProgrammingSession flag, "currently in programming mode" (10_state R24). -/
def State.inSession (s : State) : Bool := s.pm == .commandsActive

/-- The IRC field of STATUS: the cached value, else 0 (10_state R31). -/
def IrCache.value : IrCache → BitVec 8
  | .unknown => 0
  | .known v => v

/-- The IRV field of STATUS: the cache is Known (10_state R31). -/
def IrCache.valid : IrCache → Bool
  | .unknown => false
  | .known _ => true

/-- STATUS: bits 15:13 read 0, then DEV, PM, IRV and IRC (10_state R31). -/
def statusWord (s : State) : Half :=
  (0 : BitVec 3) ++ BitVec.ofBool s.device ++ s.pm.code ++ BitVec.ofBool s.irCache.valid
    ++ s.irCache.value

/-- The code of an error kind; 0 is success (60_exceptions R340). -/
def ErrKind.code : ErrKind → Nat
  | .invalidTap => 1
  | .widthMismatch => 2
  | .widthOverflow => 3
  | .alreadyActive => 4
  | .timeout => 5
  | .transport _ => 6
  | .notActive => 7
  | .badArgument => 8
  | .illegalOp => 9

/-- The code of a result (60_exceptions R340). -/
def Result.code : Result → Nat
  | .ok _ => 0
  | .err kind _ => kind.code

/-- The classes of errors (60_exceptions R340). -/
inductive ErrClass where
  | tapError
  | protocolError
  | transportPropagated
  | specOwn
deriving DecidableEq, Repr

/-- The class of an error kind (60_exceptions R340). -/
def ErrKind.errClass : ErrKind → ErrClass
  | .invalidTap => .tapError
  | .widthMismatch => .tapError
  | .widthOverflow => .tapError
  | .alreadyActive => .protocolError
  | .timeout => .protocolError
  | .transport _ => .transportPropagated
  | .notActive => .specOwn
  | .badArgument => .specOwn
  | .illegalOp => .specOwn

/-- The values of a result's data as the host sees them (00_scope R13, 30_encoding R80). -/
def OkData.values : OkData → List Nat
  | .empty => []
  | .capture c => [c.toNat]
  | .captures cs => cs.map BitVec.toNat
  | .bytes bs => bs.map BitVec.toNat
  | .status v => [v.toNat]

end Sys2Proof.Machine
end

