-- ==== Sys2Proof/Machine/Operands.lean ====
section
/-! DEFINITION. Operand forms of command words, the fields of a capture, argument checks, and the scripts
of the memory operations (30_encoding R88 to R90; 43_command_words R190; 44_memory_ops R243 to R263). -/

namespace Sys2Proof.Machine

/-! ### Words with operands (30_encoding R88, R90) -/

/-- Two words in order. -/
def seq2Words (q : Seq2) : List CmdWord := [q.w0, q.w1]

/-- Three words in order. -/
def seq3Words (q : Seq3) : List CmdWord := [q.w0, q.w1, q.w2]

/-- Four words in order. -/
def seq4Words (q : Seq4) : List CmdWord := [q.w0, q.w1, q.w2, q.w3]

/-- `addr[15:8]` of a 16-bit address (30_encoding R88). -/
def addrHighByte (a : Nat) : Byte := BitVec.ofNat 8 (a >>> 8)

/-- `addr[7:0]` of a 16-bit address, or an index (30_encoding R88). -/
def addrLowByte (a : Nat) : Byte := BitVec.ofNat 8 (a &&& 0xFF)

/-- A data byte `d[7:0]` (30_encoding R88). -/
def dataByte (d : Nat) : Byte := BitVec.ofNat 8 d

/-- The lock operand `d[5:0]`; the base word carries the ones in bits 7:6 (30_encoding R88). -/
def lockBits (d : Nat) : BitVec 6 := BitVec.ofNat 6 d

/-- `ADDR_HI` of a byte (43_command_words R194). -/
def addrHiWord (cmd : Cmd) (b : Byte) : CmdWord := wordWith cmd.addrHi b

/-- `ADDR_LO` of a byte (43_command_words R195). -/
def addrLoWord (cmd : Cmd) (b : Byte) : CmdWord := wordWith cmd.addrLo b

/-- `DATA_LO` of a byte (43_command_words R196). -/
def dataLoWord (cmd : Cmd) (b : Byte) : CmdWord := wordWith cmd.dataLo b

/-- `DATA_HI` of a byte (43_command_words R197). -/
def dataHiWord (cmd : Cmd) (b : Byte) : CmdWord := wordWith cmd.dataHi b

/-- `LK_DATA` of six bits (43_command_words R214). -/
def lkDataWord (cmd : Cmd) (b : BitVec 6) : CmdWord := wordWith cmd.lkData (b.setWidth 8)

/-- The first word of `ER_READ` of a byte (43_command_words R207). -/
def erReadWord (cmd : Cmd) (b : Byte) : CmdWord := wordWith cmd.erRead.w0 b

/-- The words of a script by name, its operand letters filled from one byte (43_command_words R190,
30_encoding R90). A script without operand letters ignores the byte. -/
def scriptWords (cmd : Cmd) (b : Byte) : Script → List CmdWord
  | .ceSeq => seq4Words cmd.ceSeq
  | .cePoll => [cmd.cePoll]
  | .fwEnter => [cmd.fwEnter]
  | .addrHi => [addrHiWord cmd b]
  | .addrLo => [addrLoWord cmd b]
  | .dataLo => [dataLoWord cmd b]
  | .dataHi => [dataHiWord cmd b]
  | .latch => seq3Words cmd.latch
  | .fwWrite => seq4Words cmd.fwWrite
  | .fwPoll => [cmd.fwPoll]
  | .frEnter => [cmd.frEnter]
  | .frRead => seq3Words cmd.frRead
  | .ewEnter => [cmd.ewEnter]
  | .ewWrite => seq4Words cmd.ewWrite
  | .ewPoll => [cmd.ewPoll]
  | .erEnter => [cmd.erEnter]
  | .erRead => [erReadWord cmd b, cmd.erRead.w1, cmd.erRead.w2]
  | .fuEnter => [cmd.fuEnter]
  | .fuhWrite => seq4Words cmd.fuhWrite
  | .fuhPoll => [cmd.fuhPoll]
  | .fulWrite => seq4Words cmd.fulWrite
  | .fulPoll => [cmd.fulPoll]
  | .lkEnter => [cmd.lkEnter]
  | .lkData => [lkDataWord cmd (b.setWidth 6)]
  | .lkWrite => seq4Words cmd.lkWrite
  | .lkPoll => [cmd.lkPoll]
  | .flrEnter => [cmd.flrEnter]
  | .fuhRead => seq2Words cmd.fuhRead
  | .fulRead => seq2Words cmd.fulRead
  | .lkRead => seq2Words cmd.lkRead
  | .flrAll => seq4Words cmd.flrAll
  | .sigEnter => [cmd.sigEnter]
  | .sigRead => seq2Words cmd.sigRead
  | .calEnter => [cmd.calEnter]
  | .calRead => seq2Words cmd.calRead
  | .nop => seq2Words cmd.nop

/-- `RUN_SCRIPT @NAME(args)` expands to `RUN_SCRIPT` with the words of the script (30_encoding R96). -/
def expandScript (cmd : Cmd) (b : Byte) (sc : Script) : Instr :=
  .runScript ((scriptWords cmd b sc).map BitVec.toNat)

/-! ### Fields of a capture (30_encoding R89) -/

/-- Capture `k` of a script. Every index the block reads is inside its script (log 24). -/
def captureAt (caps : List CmdWord) (k : Nat) : CmdWord := caps.getD k 0

/-- Data out, `c[7:0]` (30_encoding R89). -/
def dataOut (c : CmdWord) : Byte := c.extractLsb' 0 8

/-- Lock out, `zext_8(c[5:0])` (30_encoding R89, 44_memory_ops R260). -/
def lockOut (c : CmdWord) : Byte := (c.extractLsb' 0 6).setWidth 8

/-! ### Argument checks (44_memory_ops R243, 45_target_interface R282) -/

/-- A data argument fits a byte. -/
def byteArgOk (d : Nat) : Bool := decide (d < 256)

/-- A flash page index is inside the flash. -/
def pageArgOk (cfg : Config) (p : Nat) : Bool := decide (p < cfg.flashWords / cfg.pageWords)

/-- The data of a page write: two bytes for each word of the page. -/
def pageDataOk (cfg : Config) (data : List Nat) : Bool :=
  data.length == 2 * cfg.pageWords && data.all byteArgOk

/-- An EEPROM address is inside the EEPROM. -/
def eepromArgOk (cfg : Config) (a : Nat) : Bool := decide (a < cfg.eepromBytes)

/-- A signature index is inside the signature. -/
def sigArgOk (cfg : Config) (i : Nat) : Bool := decide (i < cfg.sigBytes)

/-- A calibration index is inside the calibration bytes. -/
def calArgOk (cfg : Config) (i : Nat) : Bool := decide (i < cfg.calBytes)

/-- A range of flash bytes is inside the flash (45_target_interface R282). -/
def rangeArgOk (cfg : Config) (b count : Nat) : Bool := decide (b + count ≤ 2 * cfg.flashWords)

/-! ### Scripts of the memory operations -/

/-- `CHIP_ERASE` (44_memory_ops R250). -/
def chipEraseScript (cfg : Config) : List CmdWord := seq4Words cfg.cmd.ceSeq

/-- Word `k` of a page write: address low, data low, data high, latch (44_memory_ops R251). -/
def pageWriteGroup (cfg : Config) (base : Nat) (data : List Nat) (k : Nat) : List CmdWord :=
  [addrLoWord cfg.cmd (addrLowByte (base + k)), dataLoWord cfg.cmd (dataByte (data.getD (2 * k) 0)),
    dataHiWord cfg.cmd (dataByte (data.getD (2 * k + 1) 0))] ++ seq3Words cfg.cmd.latch

/-- `FLASH_PAGE_WRITE` (44_memory_ops R251). -/
def pageWriteScript (cfg : Config) (p : Nat) (data : List Nat) : List CmdWord :=
  [cfg.cmd.fwEnter, addrHiWord cfg.cmd (addrHighByte (p * cfg.pageWords))]
    ++ (List.range cfg.pageWords).flatMap (pageWriteGroup cfg (p * cfg.pageWords) data)
    ++ seq4Words cfg.cmd.fwWrite

/-- Word `k` of a page read: address high, address low, the read sequence (44_memory_ops R252). -/
def pageReadGroup (cfg : Config) (base k : Nat) : List CmdWord :=
  [addrHiWord cfg.cmd (addrHighByte (base + k)), addrLoWord cfg.cmd (addrLowByte (base + k))]
    ++ seq3Words cfg.cmd.frRead

/-- `FLASH_PAGE_READ` (44_memory_ops R252). -/
def pageReadScript (cfg : Config) (p : Nat) : List CmdWord :=
  [cfg.cmd.frEnter] ++ (List.range cfg.pageWords).flatMap (pageReadGroup cfg (p * cfg.pageWords))

/-- The bytes of a page read: for each word the captures `4 + 5k` and `5 + 5k` (44_memory_ops R252,
90_conflicts C5). -/
def pageReadBytes (cfg : Config) (caps : List CmdWord) : List Byte :=
  (List.range cfg.pageWords).flatMap fun k =>
    [dataOut (captureAt caps (4 + 5 * k)), dataOut (captureAt caps (5 + 5 * k))]

/-- `EEPROM_WRITE` (44_memory_ops R253). -/
def eepromWriteScript (cfg : Config) (a d : Nat) : List CmdWord :=
  [cfg.cmd.ewEnter, addrHiWord cfg.cmd (addrHighByte a), addrLoWord cfg.cmd (addrLowByte a),
    dataLoWord cfg.cmd (dataByte d)] ++ seq3Words cfg.cmd.latch ++ seq4Words cfg.cmd.ewWrite

/-- `EEPROM_READ` (44_memory_ops R254). -/
def eepromReadScript (cfg : Config) (a : Nat) : List CmdWord :=
  [cfg.cmd.erEnter, addrHiWord cfg.cmd (addrHighByte a), addrLoWord cfg.cmd (addrLowByte a),
    erReadWord cfg.cmd (addrLowByte a), cfg.cmd.erRead.w1, cfg.cmd.erRead.w2]

/-- `FUSE_HIGH_WRITE` (44_memory_ops R255). -/
def fuseHighWriteScript (cfg : Config) (d : Nat) : List CmdWord :=
  [cfg.cmd.fuEnter, dataLoWord cfg.cmd (dataByte d)] ++ seq4Words cfg.cmd.fuhWrite

/-- `FUSE_LOW_WRITE` (44_memory_ops R256). -/
def fuseLowWriteScript (cfg : Config) (d : Nat) : List CmdWord :=
  [cfg.cmd.fuEnter, dataLoWord cfg.cmd (dataByte d)] ++ seq4Words cfg.cmd.fulWrite

/-- `LOCK_WRITE` (44_memory_ops R257). -/
def lockWriteScript (cfg : Config) (d : Nat) : List CmdWord :=
  [cfg.cmd.lkEnter, lkDataWord cfg.cmd (lockBits d)] ++ seq4Words cfg.cmd.lkWrite

/-- `FUSE_HIGH_READ` (44_memory_ops R258). -/
def fuseHighReadScript (cfg : Config) : List CmdWord :=
  [cfg.cmd.flrEnter] ++ seq2Words cfg.cmd.fuhRead

/-- `FUSE_LOW_READ` (44_memory_ops R259). -/
def fuseLowReadScript (cfg : Config) : List CmdWord :=
  [cfg.cmd.flrEnter] ++ seq2Words cfg.cmd.fulRead

/-- `LOCK_READ` (44_memory_ops R260). -/
def lockReadScript (cfg : Config) : List CmdWord :=
  [cfg.cmd.flrEnter] ++ seq2Words cfg.cmd.lkRead

/-- `FUSES_LOCK_READ` (44_memory_ops R261). -/
def fusesLockReadScript (cfg : Config) : List CmdWord :=
  [cfg.cmd.flrEnter] ++ seq4Words cfg.cmd.flrAll

/-- `SIGNATURE_READ` (44_memory_ops R262). -/
def signatureReadScript (cfg : Config) (i : Nat) : List CmdWord :=
  [cfg.cmd.sigEnter, addrLoWord cfg.cmd (addrLowByte i)] ++ seq2Words cfg.cmd.sigRead

/-- `CALIBRATION_READ` (44_memory_ops R263). -/
def calibrationReadScript (cfg : Config) (i : Nat) : List CmdWord :=
  [cfg.cmd.calEnter, addrLoWord cfg.cmd (addrLowByte i)] ++ seq2Words cfg.cmd.calRead

end Sys2Proof.Machine
end

