-- ==== Sys2Proof/Machine/Ops.lean ====
section
/-! DEFINITION. The shared operations of the block: raising an error (its one trap), the two scan
primitives, the instruction cache, the command executor, the busy-poll, the program-mode sequences and
the memory-operation skeleton.

TAKING AN ERROR (60_exceptions R344). `raise` stops the operation where it stands and keeps every state
write made so far, since it returns the state as it is. `Run.andThen` skips all that would follow.
`Run.onError` runs the operation's on-error clause. `finish` returns `Err(kind, info)` to the host.
RETURNING FROM IT (R345): there is no return. After `finish` no operation is in progress, and the block
waits for the next one as after a success. -/

namespace Sys2Proof.Machine

/-! ### Running a part of an operation -/

/-- How a part of an operation ends: with a value, with an error raised, or waiting for a scan that is
never answered (60_exceptions R344, R347). -/
inductive Run (α : Type) where
  | ok (v : α) (s : State)
  | err (kind : ErrKind) (info : ErrInfo) (s : State)
  | stuck (s : State)
deriving Repr

/-- What follows a part that did not fail. -/
def Run.andThen {α β : Type} (r : Run α) (k : α → State → Run β) : Run β :=
  match r with
  | .ok v s => k v s
  | .err kind info s => .err kind info s
  | .stuck s => .stuck s

/-- Raise an error (60_exceptions R344, step 1 and 2). -/
def raise {α : Type} (kind : ErrKind) (s : State) : Run α := .err kind {} s

/-- The on-error clause of an operation (60_exceptions R344, step 3). -/
def Run.onError {α : Type} (clause : State → State) : Run α → Run α
  | .err kind info s => .err kind info (clause s)
  | r => r

/-- What an error records, from the state at the error (60_exceptions R341). -/
def Run.record {α : Type} (f : State → ErrInfo → ErrInfo) : Run α → Run α
  | .err kind info s => .err kind (f s info) s
  | r => r

/-- An operation whose result data is `[]`. -/
def Run.noData {α : Type} (r : Run α) : Run OkData := r.andThen fun _ s => .ok .empty s

/-- `S.pm <- Error`, the on-error clause of enter, exit and the memory operations (42_program_mode
R162, R165; 44_memory_ops R242). -/
def toError (s : State) : State := { s with pm := .error }

/-- The transient working state and the host port start afresh, with this operation running, if any
(10_state R27, R28). -/
def startAfresh (running : Option Instr) (s : State) : State :=
  { s with running := running, pos := 0, caps := [], polls := 0, trace := [], result := none }

/-- A new operation is accepted: the sequencer position is its start (10_state R28). -/
def accept (i : Instr) (s : State) : State := startAfresh (some i) s

/-- The operation returns to the host: its result is given, and none of the transient working state
survives (10_state R20, R28). -/
def complete (r : Result) (s : State) : State :=
  { s with running := none, pos := 0, caps := [], polls := 0, result := some r }

/-- How an operation ends (00_scope R13; 60_exceptions R344 step 4, R347). -/
def finish : Run OkData → State
  | .ok data s => complete (.ok data) s
  | .err kind info s => complete (.err kind info) s
  | .stuck s => s

/-- One host operation, from acceptance to its end: what it does, run as the operation it is (00_scope R7;
10_state R28). -/
def runOperation (i : Instr) (op : State → Run OkData) (s : State) :
    Host.Outcome State Fault Refusal :=
  .next (finish (op (accept i s)))

/-! ### The environment -/

/-- A scan request enters the trace, and the sequencer position advances by one (00_scope R6,
10_state R28). -/
def issue (req : Scan) (s : State) : State :=
  { s with trace := s.trace ++ [req], pos := s.pos + 1 }

/-- The reference device's answer to a scan, and the device after it (47_reference_device R302, R303). -/
def deviceScan (cfg : Config) : Scan → Device → Nat × Device
  | .ir _ v, d => d.scanIr v
  | .dr _ v, d => d.scanDr cfg v

/-- The environment's answer to a scan (00_scope R11; 47_reference_device R312). -/
def answerScan (req : Scan) (s : State) : Answer × State :=
  match s.link with
  | .free (a :: rest) n => (a, { s with link := .free rest (n + 1) })
  | .free [] n => (Config.freeAnswer n, { s with link := .free [] (n + 1) })
  | .reference (some e :: rest) => (.err e, { s with link := .reference rest })
  | .reference (none :: rest) =>
    (.ok (deviceScan s.cfg req s.target).1,
      { s with link := .reference rest, target := (deviceScan s.cfg req s.target).2 })
  | .reference [] =>
    (.ok (deviceScan s.cfg req s.target).1, { s with target := (deviceScan s.cfg req s.target).2 })

/-- The width of a scan. -/
def Scan.width : Scan → Nat
  | .ir w _ => w
  | .dr w _ => w

/-- One scan: request, answer, and the error of a transport that failed (00_scope R11;
40_scan_primitives R110, R114). The capture has the width of the scan. -/
def scan (req : Scan) (s : State) : Run Nat :=
  match answerScan req (issue req s) with
  | (.ok c, s') => .ok (trunc req.width c) s'
  | (.err e, s') => raise (.transport e) s'
  | (.silent, s') => .stuck s'

/-! ### Scan primitives and instruction cache -/

/-- `write_instruction(w, v)` (40_scan_primitives R111). -/
def writeInstruction (w v : Nat) (s : State) : Run Unit :=
  if s.cfg.tapBound = false then raise .invalidTap s
  else if w < 1 ∨ irMaxWidth < w then raise .widthOverflow s
  else if w ≠ s.cfg.tapIrLen then raise .widthMismatch s
  else
    match scan (.ir w (trunc w v)) s with
    | .ok _ s' => .ok () { s' with irCache := .known (BitVec.ofNat 8 (trunc w v)) }
    | .err kind info s' => .err kind info { s' with irCache := .unknown }
    | .stuck s' => .stuck s'

/-- `write_data(w, v)` (40_scan_primitives R113). -/
def writeData (w v : Nat) (s : State) : Run Nat :=
  if s.cfg.tapBound = false then raise .invalidTap s
  else if w < 1 ∨ drMaxWidth < w then raise .widthOverflow s
  else scan (.dr w (trunc w v)) s

/-- `ensure_instruction(d)` (40_scan_primitives R115; 90_conflicts C9). -/
def ensureInstruction (d : Nat) (s : State) : Run Unit :=
  if s.irCache = .known (BitVec.ofNat 8 (trunc irWidth d)) then .ok () s
  else writeInstruction irWidth (trunc irWidth d) s

/-- `S.ir_cache <- Unknown` (40_scan_primitives R116; 60_exceptions R346). -/
def invalidateCache (s : State) : State := { s with irCache := .unknown }

/-! ### Command executor -/

/-- Append the capture of a word (41_command_executor R140). -/
def pushCapture (c : Nat) (s : State) : State := { s with caps := s.caps ++ [BitVec.ofNat 15 c] }

/-- The words of a script, one DR scan each (41_command_executor R140, R141). -/
def runWords : List Nat → State → Run Unit
  | [], s => .ok () s
  | w :: ws, s => (writeData pcmdWidth w s).andThen fun c s' => runWords ws (pushCapture c s')

/-- `run_command_script(words)`: an error carries the captures before the failing word
(41_command_executor R140, R143). -/
def runCommandScript (words : List Nat) (s : State) : Run (List CmdWord) :=
  ((runWords words { s with caps := [] }).record fun s' info =>
    { info with partialCaps := some s'.caps }).andThen fun _ s' => .ok s'.caps s'

/-- A script inside an operation that is not `RUN_SCRIPT`: its error carries no captures
(60_exceptions R341; log 14). -/
def runScriptInside (words : List CmdWord) (s : State) : Run (List CmdWord) :=
  (runCommandScript (words.map BitVec.toNat) s).record fun _ info => { info with partialCaps := none }

/-! ### Busy-poll -/

/-- The poll loop with so many polls left in the budget (44_memory_ops R241). -/
def pollLoop (pollWord : CmdWord) : Nat → State → Run Unit
  | 0, s => raise .timeout s
  | left + 1, s =>
    (runScriptInside [pollWord] s).andThen fun cs s' =>
      let s'' := { s' with polls := s'.polls + 1 }
      if busyFlag s''.cfg (captureAt cs 0) then pollLoop pollWord left s'' else .ok () s''

/-- `busy_poll(pw)`: a failure records the poll count (44_memory_ops R241, R242; log 15). -/
def busyPoll (pollWord : CmdWord) (s : State) : Run Unit :=
  (pollLoop pollWord s.cfg.pollBudget { s with polls := 0 }).record fun s' info =>
    { info with polls := some s'.polls }

/-! ### Program mode -/

/-- Move the controller. -/
def setPm (pm : Pm) (s : State) : State := { s with pm := pm }

/-- The enter sequence after its check (42_program_mode R162). -/
def enterSequence (s : State) : Run Unit :=
  (ensureInstruction s.cfg.irAvrReset s).andThen fun _ s =>
  (writeData s.cfg.resetDrWidth s.cfg.resetAssert s).andThen fun _ s =>
  (ensureInstruction s.cfg.irProgEnable (setPm .resetAsserted s)).andThen fun _ s =>
  (writeData s.cfg.enableDrWidth s.cfg.enableSignature s).andThen fun _ s =>
  (ensureInstruction s.cfg.irProgCommands (setPm .programEnabled s)).andThen fun _ s =>
  .ok () (setPm .commandsActive s)

/-- `enter_programming_mode()` (42_program_mode R162 to R164). -/
def enterProgrammingMode (s : State) : Run Unit :=
  if s.pm ≠ .idle then raise .alreadyActive s else (enterSequence s).onError toError

/-- The exit sequence after its check (42_program_mode R165). -/
def exitSequence (s : State) : Run Unit :=
  (ensureInstruction s.cfg.irProgCommands s).andThen fun _ s =>
  (runScriptInside (seq2Words s.cfg.cmd.nop) s).andThen fun _ s =>
  (ensureInstruction s.cfg.irProgEnable s).andThen fun _ s =>
  (writeData s.cfg.enableDrWidth s.cfg.disablePattern s).andThen fun _ s =>
  (ensureInstruction s.cfg.irAvrReset (setPm .programDisabled s)).andThen fun _ s =>
  (writeData s.cfg.resetDrWidth s.cfg.resetRelease s).andThen fun _ s =>
  .ok () (setPm .idle (setPm .resetReleased s))

/-- `exit_programming_mode()` (42_program_mode R165, R166). -/
def exitProgrammingMode (s : State) : Run Unit :=
  if s.pm = .idle then raise .notActive s else (exitSequence s).onError toError

/-! ### Memory operations -/

/-- The scan phase of a memory operation: the opening load and the script (44_memory_ops R240). -/
def scriptPhase (words : List CmdWord) (s : State) : Run (List CmdWord) :=
  (ensureInstruction s.cfg.irProgCommands s).andThen fun _ s' => runScriptInside words s'

/-- The skeleton of a memory operation that reads (44_memory_ops R240, R242, R244). -/
def readOperation (valid : Bool) (words : List CmdWord) (extract : List CmdWord → List Byte)
    (s : State) : Run OkData :=
  if s.pm ≠ .commandsActive then raise .notActive s
  else if valid = false then raise .badArgument s
  else ((scriptPhase words s).onError toError).andThen fun cs s' => .ok (.bytes (extract cs)) s'

/-- The skeleton of a memory operation that writes and then polls (44_memory_ops R240, R242, R244). -/
def writeOperation (valid : Bool) (words : List CmdWord) (pollWord : CmdWord) (s : State) :
    Run OkData :=
  if s.pm ≠ .commandsActive then raise .notActive s
  else if valid = false then raise .badArgument s
  else (((scriptPhase words s).andThen fun _ s' => busyPoll pollWord s').onError toError).noData

/-! ### Flash ranges -/

/-- `page_read_body(p)`: the scan phase of a page read (45_target_interface R282). -/
def pageReadBody (p : Nat) (s : State) : Run (List Byte) :=
  ((scriptPhase (pageReadScript s.cfg p) s).onError toError).andThen fun cs s' =>
    .ok (pageReadBytes s'.cfg cs) s'

/-- The bytes of so many pages from page `p` on, after those read before (45_target_interface R282). -/
def readPages : Nat → Nat → List Byte → State → Run (List Byte)
  | 0, _, buf, s => .ok buf s
  | left + 1, p, buf, s =>
    (pageReadBody p s).andThen fun bytes s' => readPages left (p + 1) (buf ++ bytes) s'

/-- The bytes of a page, `P` (45_target_interface R282). -/
def pageBytes (cfg : Config) : Nat := 2 * cfg.pageWords

/-- The first page of a range (45_target_interface R282). -/
def firstPage (cfg : Config) (b : Nat) : Nat := b / pageBytes cfg

/-- The last page of a range that is not empty (45_target_interface R282). -/
def lastPage (cfg : Config) (b count : Nat) : Nat := (b + count - 1) / pageBytes cfg

/-- The slice of the pages read that the host asked for (45_target_interface R282). -/
def rangeSlice (cfg : Config) (b count : Nat) (buf : List Byte) : List Byte :=
  (buf.drop (b - firstPage cfg b * pageBytes cfg)).take count

/-- `read_flash_range(b, count)` (45_target_interface R282). -/
def readFlashRange (b count : Nat) (s : State) : Run OkData :=
  if s.device = false then raise .invalidTap s
  else if s.pm ≠ .idle then raise .alreadyActive s
  else if rangeArgOk s.cfg b count = false then raise .badArgument s
  else if count = 0 then .ok (.bytes []) s
  else
    (enterProgrammingMode s).andThen fun _ s =>
    (readPages (lastPage s.cfg b count - firstPage s.cfg b + 1) (firstPage s.cfg b) [] s).andThen
      fun buf s =>
    (exitProgrammingMode s).andThen fun _ s => .ok (.bytes (rangeSlice s.cfg b count buf)) s

/-! ### Device handle, illegal operations and events -/

/-- `create()` (45_target_interface R280). -/
def createHandle (s : State) : Run Unit :=
  if s.cfg.tapBound = false then raise .invalidTap s
  else if s.cfg.tapIrLen ≠ irWidth then raise .widthMismatch s
  else .ok () { s with device := true }

/-- A host op code with no operation: none runs, no scan and no change of `S` (30_encoding R82). -/
def rejectOp (op : Byte) (s : State) : State :=
  finish ((raise .illegalOp (startAfresh none s)).record fun _ info => { info with op := some op })

/-- The event `ADAPTER_RESET`: nothing else of `S` changes (60_exceptions R346). -/
def adapterReset (s : State) : State := invalidateCache s

/-- A reset of the block: the clean launch again. The configuration and the target keep their values
(70_reset_and_hazards R370, R372; log 19). -/
def relaunch (s : State) : State := { State.launch s.cfg s.link s.target with port := s.port }

end Sys2Proof.Machine
end

