-- ==== Sys2Proof/Machine/CommandExecutor.lean ====
section
/-! DEFINITION. RUN_SCRIPT (41_command_executor). -/

namespace Sys2Proof.Machine

/-- `run_command_script(words)` as a host operation (41_command_executor R140, R143). -/
def runScriptOperation (words : List Nat) (s : State) : Run OkData :=
  (runCommandScript words s).andThen fun cs s => .ok (.captures cs) s

/-- `RUN_SCRIPT words` (41_command_executor R140 to R144). -/
def execRunScript (words : List Nat) (s : State) : Host.Outcome State Fault Refusal :=
  runOperation (.runScript words) (runScriptOperation words) s

end Sys2Proof.Machine
end

