-- ==== Sys2Proof/Machine/CommandWords.lean ====
section
/-! DEFINITION. The command-word rows of the opcode table (43_command_words R190 to R226): each is one
shift of the configured word through the command executor (30_encoding R87; 60_exceptions R348; log 9).
The result is the one capture, which answers the word before (41_command_executor R142). What the word
does at the target is the environment's part; the reference device of Machine/Device.lean is one. Rows
with the same bits are distinct steps (43_command_words R227). -/

namespace Sys2Proof.Machine

/-- One command word shifted by itself (41_command_executor R140, a script of length 1). -/
def shiftWord (word : CmdWord) (s : State) : Run OkData := runScriptOperation [word.toNat] s

/-- `CE_SEQ[0]` (43_command_words R191). -/
def execCeSeq0 (s : State) : Host.Outcome State Fault Refusal :=
  runOperation .ceSeq0 (fun s => shiftWord s.cfg.cmd.ceSeq.w0 s) s

/-- `CE_SEQ[1]` (43_command_words R191). -/
def execCeSeq1 (s : State) : Host.Outcome State Fault Refusal :=
  runOperation .ceSeq1 (fun s => shiftWord s.cfg.cmd.ceSeq.w1 s) s

/-- `CE_SEQ[2]` (43_command_words R191). -/
def execCeSeq2 (s : State) : Host.Outcome State Fault Refusal :=
  runOperation .ceSeq2 (fun s => shiftWord s.cfg.cmd.ceSeq.w2 s) s

/-- `CE_SEQ[3]` (43_command_words R191). -/
def execCeSeq3 (s : State) : Host.Outcome State Fault Refusal :=
  runOperation .ceSeq3 (fun s => shiftWord s.cfg.cmd.ceSeq.w3 s) s

/-- `CE_POLL` (43_command_words R192). -/
def execCePoll (s : State) : Host.Outcome State Fault Refusal :=
  runOperation .cePoll (fun s => shiftWord s.cfg.cmd.cePoll s) s

/-- `FW_ENTER` (43_command_words R193). -/
def execFwEnter (s : State) : Host.Outcome State Fault Refusal :=
  runOperation .fwEnter (fun s => shiftWord s.cfg.cmd.fwEnter s) s

/-- `ADDR_HI` (43_command_words R194). -/
def execAddrHi (a : Byte) (s : State) : Host.Outcome State Fault Refusal :=
  runOperation (.addrHi a) (fun s => shiftWord (addrHiWord s.cfg.cmd a) s) s

/-- `ADDR_LO` (43_command_words R195). -/
def execAddrLo (b : Byte) (s : State) : Host.Outcome State Fault Refusal :=
  runOperation (.addrLo b) (fun s => shiftWord (addrLoWord s.cfg.cmd b) s) s

/-- `DATA_LO` (43_command_words R196). -/
def execDataLo (d : Byte) (s : State) : Host.Outcome State Fault Refusal :=
  runOperation (.dataLo d) (fun s => shiftWord (dataLoWord s.cfg.cmd d) s) s

/-- `DATA_HI` (43_command_words R197). -/
def execDataHi (d : Byte) (s : State) : Host.Outcome State Fault Refusal :=
  runOperation (.dataHi d) (fun s => shiftWord (dataHiWord s.cfg.cmd d) s) s

/-- `LATCH[0]` (43_command_words R198). -/
def execLatch0 (s : State) : Host.Outcome State Fault Refusal :=
  runOperation .latch0 (fun s => shiftWord s.cfg.cmd.latch.w0 s) s

/-- `LATCH[1]` (43_command_words R198). -/
def execLatch1 (s : State) : Host.Outcome State Fault Refusal :=
  runOperation .latch1 (fun s => shiftWord s.cfg.cmd.latch.w1 s) s

/-- `LATCH[2]` (43_command_words R198). -/
def execLatch2 (s : State) : Host.Outcome State Fault Refusal :=
  runOperation .latch2 (fun s => shiftWord s.cfg.cmd.latch.w2 s) s

/-- `FW_WRITE[0]` (43_command_words R199). -/
def execFwWrite0 (s : State) : Host.Outcome State Fault Refusal :=
  runOperation .fwWrite0 (fun s => shiftWord s.cfg.cmd.fwWrite.w0 s) s

/-- `FW_WRITE[1]` (43_command_words R199). -/
def execFwWrite1 (s : State) : Host.Outcome State Fault Refusal :=
  runOperation .fwWrite1 (fun s => shiftWord s.cfg.cmd.fwWrite.w1 s) s

/-- `FW_WRITE[2]` (43_command_words R199). -/
def execFwWrite2 (s : State) : Host.Outcome State Fault Refusal :=
  runOperation .fwWrite2 (fun s => shiftWord s.cfg.cmd.fwWrite.w2 s) s

/-- `FW_WRITE[3]` (43_command_words R199). -/
def execFwWrite3 (s : State) : Host.Outcome State Fault Refusal :=
  runOperation .fwWrite3 (fun s => shiftWord s.cfg.cmd.fwWrite.w3 s) s

/-- `FW_POLL` (43_command_words R200). -/
def execFwPoll (s : State) : Host.Outcome State Fault Refusal :=
  runOperation .fwPoll (fun s => shiftWord s.cfg.cmd.fwPoll s) s

/-- `FR_ENTER` (43_command_words R201). -/
def execFrEnter (s : State) : Host.Outcome State Fault Refusal :=
  runOperation .frEnter (fun s => shiftWord s.cfg.cmd.frEnter s) s

/-- `FR_READ[0]` (43_command_words R202). -/
def execFrRead0 (s : State) : Host.Outcome State Fault Refusal :=
  runOperation .frRead0 (fun s => shiftWord s.cfg.cmd.frRead.w0 s) s

/-- `FR_READ[1]` (43_command_words R202). -/
def execFrRead1 (s : State) : Host.Outcome State Fault Refusal :=
  runOperation .frRead1 (fun s => shiftWord s.cfg.cmd.frRead.w1 s) s

/-- `FR_READ[2]` (43_command_words R202). -/
def execFrRead2 (s : State) : Host.Outcome State Fault Refusal :=
  runOperation .frRead2 (fun s => shiftWord s.cfg.cmd.frRead.w2 s) s

/-- `EW_ENTER` (43_command_words R203). -/
def execEwEnter (s : State) : Host.Outcome State Fault Refusal :=
  runOperation .ewEnter (fun s => shiftWord s.cfg.cmd.ewEnter s) s

/-- `EW_WRITE[0]` (43_command_words R204). -/
def execEwWrite0 (s : State) : Host.Outcome State Fault Refusal :=
  runOperation .ewWrite0 (fun s => shiftWord s.cfg.cmd.ewWrite.w0 s) s

/-- `EW_WRITE[1]` (43_command_words R204). -/
def execEwWrite1 (s : State) : Host.Outcome State Fault Refusal :=
  runOperation .ewWrite1 (fun s => shiftWord s.cfg.cmd.ewWrite.w1 s) s

/-- `EW_WRITE[2]` (43_command_words R204). -/
def execEwWrite2 (s : State) : Host.Outcome State Fault Refusal :=
  runOperation .ewWrite2 (fun s => shiftWord s.cfg.cmd.ewWrite.w2 s) s

/-- `EW_WRITE[3]` (43_command_words R204). -/
def execEwWrite3 (s : State) : Host.Outcome State Fault Refusal :=
  runOperation .ewWrite3 (fun s => shiftWord s.cfg.cmd.ewWrite.w3 s) s

/-- `EW_POLL` (43_command_words R205). -/
def execEwPoll (s : State) : Host.Outcome State Fault Refusal :=
  runOperation .ewPoll (fun s => shiftWord s.cfg.cmd.ewPoll s) s

/-- `ER_ENTER` (43_command_words R206). -/
def execErEnter (s : State) : Host.Outcome State Fault Refusal :=
  runOperation .erEnter (fun s => shiftWord s.cfg.cmd.erEnter s) s

/-- `ER_READ[0]` (43_command_words R207). -/
def execErRead0 (b : Byte) (s : State) : Host.Outcome State Fault Refusal :=
  runOperation (.erRead0 b) (fun s => shiftWord (erReadWord s.cfg.cmd b) s) s

/-- `ER_READ[1]` (43_command_words R207). -/
def execErRead1 (s : State) : Host.Outcome State Fault Refusal :=
  runOperation .erRead1 (fun s => shiftWord s.cfg.cmd.erRead.w1 s) s

/-- `ER_READ[2]` (43_command_words R207). -/
def execErRead2 (s : State) : Host.Outcome State Fault Refusal :=
  runOperation .erRead2 (fun s => shiftWord s.cfg.cmd.erRead.w2 s) s

/-- `FU_ENTER` (43_command_words R208). -/
def execFuEnter (s : State) : Host.Outcome State Fault Refusal :=
  runOperation .fuEnter (fun s => shiftWord s.cfg.cmd.fuEnter s) s

/-- `FUH_WRITE[0]` (43_command_words R209). -/
def execFuhWrite0 (s : State) : Host.Outcome State Fault Refusal :=
  runOperation .fuhWrite0 (fun s => shiftWord s.cfg.cmd.fuhWrite.w0 s) s

/-- `FUH_WRITE[1]` (43_command_words R209). -/
def execFuhWrite1 (s : State) : Host.Outcome State Fault Refusal :=
  runOperation .fuhWrite1 (fun s => shiftWord s.cfg.cmd.fuhWrite.w1 s) s

/-- `FUH_WRITE[2]` (43_command_words R209). -/
def execFuhWrite2 (s : State) : Host.Outcome State Fault Refusal :=
  runOperation .fuhWrite2 (fun s => shiftWord s.cfg.cmd.fuhWrite.w2 s) s

/-- `FUH_WRITE[3]` (43_command_words R209). -/
def execFuhWrite3 (s : State) : Host.Outcome State Fault Refusal :=
  runOperation .fuhWrite3 (fun s => shiftWord s.cfg.cmd.fuhWrite.w3 s) s

/-- `FUH_POLL` (43_command_words R210). -/
def execFuhPoll (s : State) : Host.Outcome State Fault Refusal :=
  runOperation .fuhPoll (fun s => shiftWord s.cfg.cmd.fuhPoll s) s

/-- `FUL_WRITE[0]` (43_command_words R211). -/
def execFulWrite0 (s : State) : Host.Outcome State Fault Refusal :=
  runOperation .fulWrite0 (fun s => shiftWord s.cfg.cmd.fulWrite.w0 s) s

/-- `FUL_WRITE[1]` (43_command_words R211). -/
def execFulWrite1 (s : State) : Host.Outcome State Fault Refusal :=
  runOperation .fulWrite1 (fun s => shiftWord s.cfg.cmd.fulWrite.w1 s) s

/-- `FUL_WRITE[2]` (43_command_words R211). -/
def execFulWrite2 (s : State) : Host.Outcome State Fault Refusal :=
  runOperation .fulWrite2 (fun s => shiftWord s.cfg.cmd.fulWrite.w2 s) s

/-- `FUL_WRITE[3]` (43_command_words R211). -/
def execFulWrite3 (s : State) : Host.Outcome State Fault Refusal :=
  runOperation .fulWrite3 (fun s => shiftWord s.cfg.cmd.fulWrite.w3 s) s

/-- `FUL_POLL` (43_command_words R212). -/
def execFulPoll (s : State) : Host.Outcome State Fault Refusal :=
  runOperation .fulPoll (fun s => shiftWord s.cfg.cmd.fulPoll s) s

/-- `LK_ENTER` (43_command_words R213). -/
def execLkEnter (s : State) : Host.Outcome State Fault Refusal :=
  runOperation .lkEnter (fun s => shiftWord s.cfg.cmd.lkEnter s) s

/-- `LK_DATA` (43_command_words R214). -/
def execLkData (d : BitVec 6) (s : State) : Host.Outcome State Fault Refusal :=
  runOperation (.lkData d) (fun s => shiftWord (lkDataWord s.cfg.cmd d) s) s

/-- `LK_WRITE[0]` (43_command_words R215). -/
def execLkWrite0 (s : State) : Host.Outcome State Fault Refusal :=
  runOperation .lkWrite0 (fun s => shiftWord s.cfg.cmd.lkWrite.w0 s) s

/-- `LK_WRITE[1]` (43_command_words R215). -/
def execLkWrite1 (s : State) : Host.Outcome State Fault Refusal :=
  runOperation .lkWrite1 (fun s => shiftWord s.cfg.cmd.lkWrite.w1 s) s

/-- `LK_WRITE[2]` (43_command_words R215). -/
def execLkWrite2 (s : State) : Host.Outcome State Fault Refusal :=
  runOperation .lkWrite2 (fun s => shiftWord s.cfg.cmd.lkWrite.w2 s) s

/-- `LK_WRITE[3]` (43_command_words R215). -/
def execLkWrite3 (s : State) : Host.Outcome State Fault Refusal :=
  runOperation .lkWrite3 (fun s => shiftWord s.cfg.cmd.lkWrite.w3 s) s

/-- `LK_POLL` (43_command_words R216). -/
def execLkPoll (s : State) : Host.Outcome State Fault Refusal :=
  runOperation .lkPoll (fun s => shiftWord s.cfg.cmd.lkPoll s) s

/-- `FLR_ENTER` (43_command_words R217). -/
def execFlrEnter (s : State) : Host.Outcome State Fault Refusal :=
  runOperation .flrEnter (fun s => shiftWord s.cfg.cmd.flrEnter s) s

/-- `FUH_READ[0]` (43_command_words R218). -/
def execFuhRead0 (s : State) : Host.Outcome State Fault Refusal :=
  runOperation .fuhRead0 (fun s => shiftWord s.cfg.cmd.fuhRead.w0 s) s

/-- `FUH_READ[1]` (43_command_words R218). -/
def execFuhRead1 (s : State) : Host.Outcome State Fault Refusal :=
  runOperation .fuhRead1 (fun s => shiftWord s.cfg.cmd.fuhRead.w1 s) s

/-- `FUL_READ[0]` (43_command_words R219). -/
def execFulRead0 (s : State) : Host.Outcome State Fault Refusal :=
  runOperation .fulRead0 (fun s => shiftWord s.cfg.cmd.fulRead.w0 s) s

/-- `FUL_READ[1]` (43_command_words R219). -/
def execFulRead1 (s : State) : Host.Outcome State Fault Refusal :=
  runOperation .fulRead1 (fun s => shiftWord s.cfg.cmd.fulRead.w1 s) s

/-- `LK_READ[0]` (43_command_words R220). -/
def execLkRead0 (s : State) : Host.Outcome State Fault Refusal :=
  runOperation .lkRead0 (fun s => shiftWord s.cfg.cmd.lkRead.w0 s) s

/-- `LK_READ[1]` (43_command_words R220). -/
def execLkRead1 (s : State) : Host.Outcome State Fault Refusal :=
  runOperation .lkRead1 (fun s => shiftWord s.cfg.cmd.lkRead.w1 s) s

/-- `FLR_ALL[0]` (43_command_words R221). -/
def execFlrAll0 (s : State) : Host.Outcome State Fault Refusal :=
  runOperation .flrAll0 (fun s => shiftWord s.cfg.cmd.flrAll.w0 s) s

/-- `FLR_ALL[1]` (43_command_words R221). -/
def execFlrAll1 (s : State) : Host.Outcome State Fault Refusal :=
  runOperation .flrAll1 (fun s => shiftWord s.cfg.cmd.flrAll.w1 s) s

/-- `FLR_ALL[2]` (43_command_words R221). -/
def execFlrAll2 (s : State) : Host.Outcome State Fault Refusal :=
  runOperation .flrAll2 (fun s => shiftWord s.cfg.cmd.flrAll.w2 s) s

/-- `FLR_ALL[3]` (43_command_words R221). -/
def execFlrAll3 (s : State) : Host.Outcome State Fault Refusal :=
  runOperation .flrAll3 (fun s => shiftWord s.cfg.cmd.flrAll.w3 s) s

/-- `SIG_ENTER` (43_command_words R222). -/
def execSigEnter (s : State) : Host.Outcome State Fault Refusal :=
  runOperation .sigEnter (fun s => shiftWord s.cfg.cmd.sigEnter s) s

/-- `SIG_READ[0]` (43_command_words R223). -/
def execSigRead0 (s : State) : Host.Outcome State Fault Refusal :=
  runOperation .sigRead0 (fun s => shiftWord s.cfg.cmd.sigRead.w0 s) s

/-- `SIG_READ[1]` (43_command_words R223). -/
def execSigRead1 (s : State) : Host.Outcome State Fault Refusal :=
  runOperation .sigRead1 (fun s => shiftWord s.cfg.cmd.sigRead.w1 s) s

/-- `CAL_ENTER` (43_command_words R224). -/
def execCalEnter (s : State) : Host.Outcome State Fault Refusal :=
  runOperation .calEnter (fun s => shiftWord s.cfg.cmd.calEnter s) s

/-- `CAL_READ[0]` (43_command_words R225). -/
def execCalRead0 (s : State) : Host.Outcome State Fault Refusal :=
  runOperation .calRead0 (fun s => shiftWord s.cfg.cmd.calRead.w0 s) s

/-- `CAL_READ[1]` (43_command_words R225). -/
def execCalRead1 (s : State) : Host.Outcome State Fault Refusal :=
  runOperation .calRead1 (fun s => shiftWord s.cfg.cmd.calRead.w1 s) s

/-- `NOP[0]` (43_command_words R226). -/
def execNop0 (s : State) : Host.Outcome State Fault Refusal :=
  runOperation .nop0 (fun s => shiftWord s.cfg.cmd.nop.w0 s) s

/-- `NOP[1]` (43_command_words R226). -/
def execNop1 (s : State) : Host.Outcome State Fault Refusal :=
  runOperation .nop1 (fun s => shiftWord s.cfg.cmd.nop.w1 s) s

end Sys2Proof.Machine
end

