-- ==== Sys2Proof/Machine/IrScans.lean ====
section
/-! DEFINITION. The IR scan rows of the opcode table (30_encoding R83): each is the block's own IR scan
`ScanIR(IR_WIDTH, code)` of the configured code, through `write_instruction` (log 9). -/

namespace Sys2Proof.Machine

/-- One of the block's own IR scans, as an operation by itself (30_encoding R83; 40_scan_primitives
R111). -/
def irScanOperation (code : Nat) (s : State) : Run OkData := (writeInstruction irWidth code s).noData

/-- `IR_AVR_RESET`: the reset instruction (30_encoding R83). -/
def execIrAvrReset (s : State) : Host.Outcome State Fault Refusal :=
  runOperation .irAvrReset (fun s => irScanOperation s.cfg.irAvrReset s) s

/-- `IR_PROG_ENABLE`: the program-enable instruction (30_encoding R83). -/
def execIrProgEnable (s : State) : Host.Outcome State Fault Refusal :=
  runOperation .irProgEnable (fun s => irScanOperation s.cfg.irProgEnable s) s

/-- `IR_PROG_COMMANDS`: the programming-commands instruction (30_encoding R83). -/
def execIrProgCommands (s : State) : Host.Outcome State Fault Refusal :=
  runOperation .irProgCommands (fun s => irScanOperation s.cfg.irProgCommands s) s

end Sys2Proof.Machine
end

