-- ==== Sys2Proof/Machine/MemoryOps.lean ====
section
/-! DEFINITION. The memory access operations (44_memory_ops R250 to R263). -/

namespace Sys2Proof.Machine

/-- `CHIP_ERASE` (44_memory_ops R250). -/
def execChipErase (s : State) : Host.Outcome State Fault Refusal :=
  runOperation .chipErase
    (fun s => writeOperation true (chipEraseScript s.cfg) s.cfg.cmd.cePoll s) s

/-- `FLASH_PAGE_WRITE p, data` (44_memory_ops R251). -/
def execFlashPageWrite (p : Nat) (data : List Nat) (s : State) : Host.Outcome State Fault Refusal :=
  runOperation (.flashPageWrite p data)
    (fun s => writeOperation (pageArgOk s.cfg p && pageDataOk s.cfg data)
      (pageWriteScript s.cfg p data) s.cfg.cmd.fwPoll s) s

/-- `FLASH_PAGE_READ p` (44_memory_ops R252). -/
def execFlashPageRead (p : Nat) (s : State) : Host.Outcome State Fault Refusal :=
  runOperation (.flashPageRead p)
    (fun s => readOperation (pageArgOk s.cfg p) (pageReadScript s.cfg p)
      (pageReadBytes s.cfg) s) s

/-- `EEPROM_WRITE a, d` (44_memory_ops R253). -/
def execEepromWrite (a d : Nat) (s : State) : Host.Outcome State Fault Refusal :=
  runOperation (.eepromWrite a d) (fun s => writeOperation (eepromArgOk s.cfg a && byteArgOk d)
    (eepromWriteScript s.cfg a d) s.cfg.cmd.ewPoll s) s

/-- `EEPROM_READ a` (44_memory_ops R254). -/
def execEepromRead (a : Nat) (s : State) : Host.Outcome State Fault Refusal :=
  runOperation (.eepromRead a)
    (fun s => readOperation (eepromArgOk s.cfg a) (eepromReadScript s.cfg a)
      (fun cs => [dataOut (captureAt cs 5)]) s) s

/-- `FUSE_HIGH_WRITE d` (44_memory_ops R255). -/
def execFuseHighWrite (d : Nat) (s : State) : Host.Outcome State Fault Refusal :=
  runOperation (.fuseHighWrite d)
    (fun s => writeOperation (byteArgOk d) (fuseHighWriteScript s.cfg d)
      s.cfg.cmd.fuhPoll s) s

/-- `FUSE_LOW_WRITE d` (44_memory_ops R256). -/
def execFuseLowWrite (d : Nat) (s : State) : Host.Outcome State Fault Refusal :=
  runOperation (.fuseLowWrite d) (fun s => writeOperation (byteArgOk d) (fuseLowWriteScript s.cfg d)
    s.cfg.cmd.fulPoll s) s

/-- `LOCK_WRITE d` (44_memory_ops R257). -/
def execLockWrite (d : Nat) (s : State) : Host.Outcome State Fault Refusal :=
  runOperation (.lockWrite d) (fun s => writeOperation (byteArgOk d) (lockWriteScript s.cfg d)
    s.cfg.cmd.lkPoll s) s

/-- `FUSE_HIGH_READ` (44_memory_ops R258). -/
def execFuseHighRead (s : State) : Host.Outcome State Fault Refusal :=
  runOperation .fuseHighRead (fun s => readOperation true (fuseHighReadScript s.cfg)
    (fun cs => [dataOut (captureAt cs 2)]) s) s

/-- `FUSE_LOW_READ` (44_memory_ops R259). -/
def execFuseLowRead (s : State) : Host.Outcome State Fault Refusal :=
  runOperation .fuseLowRead (fun s => readOperation true (fuseLowReadScript s.cfg)
    (fun cs => [dataOut (captureAt cs 2)]) s) s

/-- `LOCK_READ` (44_memory_ops R260). -/
def execLockRead (s : State) : Host.Outcome State Fault Refusal :=
  runOperation .lockRead (fun s => readOperation true (lockReadScript s.cfg)
    (fun cs => [lockOut (captureAt cs 2)]) s) s

/-- `FUSES_LOCK_READ`: fuse high, fuse low, lock (44_memory_ops R261). -/
def execFusesLockRead (s : State) : Host.Outcome State Fault Refusal :=
  runOperation .fusesLockRead (fun s => readOperation true (fusesLockReadScript s.cfg)
    (fun cs => [dataOut (captureAt cs 2), dataOut (captureAt cs 3), lockOut (captureAt cs 4)]) s) s

/-- `SIGNATURE_READ i` (44_memory_ops R262). -/
def execSignatureRead (i : Nat) (s : State) : Host.Outcome State Fault Refusal :=
  runOperation (.signatureRead i)
    (fun s => readOperation (sigArgOk s.cfg i) (signatureReadScript s.cfg i)
      (fun cs => [dataOut (captureAt cs 3)]) s) s

/-- `CALIBRATION_READ i` (44_memory_ops R263). -/
def execCalibrationRead (i : Nat) (s : State) : Host.Outcome State Fault Refusal :=
  runOperation (.calibrationRead i)
    (fun s => readOperation (calArgOk s.cfg i) (calibrationReadScript s.cfg i)
      (fun cs => [dataOut (captureAt cs 3)]) s) s

end Sys2Proof.Machine
end

