-- ==== Sys2Proof/Machine/ProgramMode.lean ====
section
/-! DEFINITION. ENTER_PROG and EXIT_PROG (42_program_mode). -/

namespace Sys2Proof.Machine

/-- `ENTER_PROG` (42_program_mode R162 to R164). -/
def execEnterProg (s : State) : Host.Outcome State Fault Refusal :=
  runOperation .enterProg (fun s => (enterProgrammingMode s).noData) s

/-- `EXIT_PROG` (42_program_mode R165, R166). -/
def execExitProg (s : State) : Host.Outcome State Fault Refusal :=
  runOperation .exitProg (fun s => (exitProgrammingMode s).noData) s

end Sys2Proof.Machine
end

