-- ==== Sys2Proof/Machine/ScanPrimitives.lean ====
section
/-! DEFINITION. WRITE_IR, WRITE_DR, ENSURE_IR and INVALIDATE_IR (40_scan_primitives). -/

namespace Sys2Proof.Machine

/-- `WRITE_IR w, v` (40_scan_primitives R111, R112). -/
def execWriteIr (w v : Nat) (s : State) : Host.Outcome State Fault Refusal :=
  runOperation (.writeIr w v) (fun s => (writeInstruction w v s).noData) s

/-- `WRITE_DR w, v` (40_scan_primitives R113). -/
def execWriteDr (w v : Nat) (s : State) : Host.Outcome State Fault Refusal :=
  runOperation (.writeDr w v)
    (fun s => (writeData w v s).andThen fun c s => .ok (.capture (BitVec.ofNat 32 c)) s) s

/-- `ENSURE_IR d` (40_scan_primitives R115). -/
def execEnsureIr (d : Nat) (s : State) : Host.Outcome State Fault Refusal :=
  runOperation (.ensureIr d) (fun s => (ensureInstruction d s).noData) s

/-- `INVALIDATE_IR` (40_scan_primitives R116). -/
def execInvalidateIr (s : State) : Host.Outcome State Fault Refusal :=
  runOperation .invalidateIr (fun s => .ok .empty (invalidateCache s)) s

end Sys2Proof.Machine
end

