-- ==== Sys2Proof/Machine/TargetInterface.lean ====
section
/-! DEFINITION. CREATE, READ_FLASH_RANGE and READ_STATUS (45_target_interface). -/

namespace Sys2Proof.Machine

/-- `CREATE` (45_target_interface R280, R281). -/
def execCreate (s : State) : Host.Outcome State Fault Refusal :=
  runOperation .create (fun s => (createHandle s).noData) s

/-- `READ_FLASH_RANGE b, count` (45_target_interface R282). -/
def execReadFlashRange (b count : Nat) (s : State) : Host.Outcome State Fault Refusal :=
  runOperation (.readFlashRange b count) (readFlashRange b count) s

/-- `READ_STATUS` (45_target_interface R284). -/
def execReadStatus (s : State) : Host.Outcome State Fault Refusal :=
  runOperation .readStatus (fun s => .ok (.status (statusWord s)) s) s

end Sys2Proof.Machine
end

