-- ==== Sys2Proof/Machine/Dispatch.lean ====
section
/-! DEFINITION. Each instruction's meaning. -/

namespace Sys2Proof.Machine

def exec (i : Instr) (s : State) : Host.Outcome State Fault Refusal :=
  match i with
  | .create => Sys2Proof.Machine.execCreate s
  | .writeIr w v => Sys2Proof.Machine.execWriteIr w v s
  | .writeDr w v => Sys2Proof.Machine.execWriteDr w v s
  | .ensureIr d => Sys2Proof.Machine.execEnsureIr d s
  | .invalidateIr => Sys2Proof.Machine.execInvalidateIr s
  | .runScript words => Sys2Proof.Machine.execRunScript words s
  | .enterProg => Sys2Proof.Machine.execEnterProg s
  | .exitProg => Sys2Proof.Machine.execExitProg s
  | .chipErase => Sys2Proof.Machine.execChipErase s
  | .flashPageWrite p data => Sys2Proof.Machine.execFlashPageWrite p data s
  | .flashPageRead p => Sys2Proof.Machine.execFlashPageRead p s
  | .eepromWrite a d => Sys2Proof.Machine.execEepromWrite a d s
  | .eepromRead a => Sys2Proof.Machine.execEepromRead a s
  | .fuseHighWrite d => Sys2Proof.Machine.execFuseHighWrite d s
  | .fuseLowWrite d => Sys2Proof.Machine.execFuseLowWrite d s
  | .lockWrite d => Sys2Proof.Machine.execLockWrite d s
  | .fuseHighRead => Sys2Proof.Machine.execFuseHighRead s
  | .fuseLowRead => Sys2Proof.Machine.execFuseLowRead s
  | .lockRead => Sys2Proof.Machine.execLockRead s
  | .fusesLockRead => Sys2Proof.Machine.execFusesLockRead s
  | .signatureRead idx => Sys2Proof.Machine.execSignatureRead idx s
  | .calibrationRead idx => Sys2Proof.Machine.execCalibrationRead idx s
  | .readFlashRange b count => Sys2Proof.Machine.execReadFlashRange b count s
  | .readStatus => Sys2Proof.Machine.execReadStatus s
  | .irAvrReset => Sys2Proof.Machine.execIrAvrReset s
  | .irProgEnable => Sys2Proof.Machine.execIrProgEnable s
  | .irProgCommands => Sys2Proof.Machine.execIrProgCommands s
  | .ceSeq0 => Sys2Proof.Machine.execCeSeq0 s
  | .ceSeq1 => Sys2Proof.Machine.execCeSeq1 s
  | .ceSeq2 => Sys2Proof.Machine.execCeSeq2 s
  | .ceSeq3 => Sys2Proof.Machine.execCeSeq3 s
  | .cePoll => Sys2Proof.Machine.execCePoll s
  | .fwEnter => Sys2Proof.Machine.execFwEnter s
  | .addrHi a => Sys2Proof.Machine.execAddrHi a s
  | .addrLo b => Sys2Proof.Machine.execAddrLo b s
  | .dataLo d => Sys2Proof.Machine.execDataLo d s
  | .dataHi d => Sys2Proof.Machine.execDataHi d s
  | .latch0 => Sys2Proof.Machine.execLatch0 s
  | .latch1 => Sys2Proof.Machine.execLatch1 s
  | .latch2 => Sys2Proof.Machine.execLatch2 s
  | .fwWrite0 => Sys2Proof.Machine.execFwWrite0 s
  | .fwWrite1 => Sys2Proof.Machine.execFwWrite1 s
  | .fwWrite2 => Sys2Proof.Machine.execFwWrite2 s
  | .fwWrite3 => Sys2Proof.Machine.execFwWrite3 s
  | .fwPoll => Sys2Proof.Machine.execFwPoll s
  | .frEnter => Sys2Proof.Machine.execFrEnter s
  | .frRead0 => Sys2Proof.Machine.execFrRead0 s
  | .frRead1 => Sys2Proof.Machine.execFrRead1 s
  | .frRead2 => Sys2Proof.Machine.execFrRead2 s
  | .ewEnter => Sys2Proof.Machine.execEwEnter s
  | .ewWrite0 => Sys2Proof.Machine.execEwWrite0 s
  | .ewWrite1 => Sys2Proof.Machine.execEwWrite1 s
  | .ewWrite2 => Sys2Proof.Machine.execEwWrite2 s
  | .ewWrite3 => Sys2Proof.Machine.execEwWrite3 s
  | .ewPoll => Sys2Proof.Machine.execEwPoll s
  | .erEnter => Sys2Proof.Machine.execErEnter s
  | .erRead0 b => Sys2Proof.Machine.execErRead0 b s
  | .erRead1 => Sys2Proof.Machine.execErRead1 s
  | .erRead2 => Sys2Proof.Machine.execErRead2 s
  | .fuEnter => Sys2Proof.Machine.execFuEnter s
  | .fuhWrite0 => Sys2Proof.Machine.execFuhWrite0 s
  | .fuhWrite1 => Sys2Proof.Machine.execFuhWrite1 s
  | .fuhWrite2 => Sys2Proof.Machine.execFuhWrite2 s
  | .fuhWrite3 => Sys2Proof.Machine.execFuhWrite3 s
  | .fuhPoll => Sys2Proof.Machine.execFuhPoll s
  | .fulWrite0 => Sys2Proof.Machine.execFulWrite0 s
  | .fulWrite1 => Sys2Proof.Machine.execFulWrite1 s
  | .fulWrite2 => Sys2Proof.Machine.execFulWrite2 s
  | .fulWrite3 => Sys2Proof.Machine.execFulWrite3 s
  | .fulPoll => Sys2Proof.Machine.execFulPoll s
  | .lkEnter => Sys2Proof.Machine.execLkEnter s
  | .lkData d => Sys2Proof.Machine.execLkData d s
  | .lkWrite0 => Sys2Proof.Machine.execLkWrite0 s
  | .lkWrite1 => Sys2Proof.Machine.execLkWrite1 s
  | .lkWrite2 => Sys2Proof.Machine.execLkWrite2 s
  | .lkWrite3 => Sys2Proof.Machine.execLkWrite3 s
  | .lkPoll => Sys2Proof.Machine.execLkPoll s
  | .flrEnter => Sys2Proof.Machine.execFlrEnter s
  | .fuhRead0 => Sys2Proof.Machine.execFuhRead0 s
  | .fuhRead1 => Sys2Proof.Machine.execFuhRead1 s
  | .fulRead0 => Sys2Proof.Machine.execFulRead0 s
  | .fulRead1 => Sys2Proof.Machine.execFulRead1 s
  | .lkRead0 => Sys2Proof.Machine.execLkRead0 s
  | .lkRead1 => Sys2Proof.Machine.execLkRead1 s
  | .flrAll0 => Sys2Proof.Machine.execFlrAll0 s
  | .flrAll1 => Sys2Proof.Machine.execFlrAll1 s
  | .flrAll2 => Sys2Proof.Machine.execFlrAll2 s
  | .flrAll3 => Sys2Proof.Machine.execFlrAll3 s
  | .sigEnter => Sys2Proof.Machine.execSigEnter s
  | .sigRead0 => Sys2Proof.Machine.execSigRead0 s
  | .sigRead1 => Sys2Proof.Machine.execSigRead1 s
  | .calEnter => Sys2Proof.Machine.execCalEnter s
  | .calRead0 => Sys2Proof.Machine.execCalRead0 s
  | .calRead1 => Sys2Proof.Machine.execCalRead1 s
  | .nop0 => Sys2Proof.Machine.execNop0 s
  | .nop1 => Sys2Proof.Machine.execNop1 s

end Sys2Proof.Machine
end

