-- ==== Sys2Proof/Machine/Step.lean ====
section
/-! DEFINITION. One step: the machine takes the next input of the host port (log 2). The three outcomes:
a next state, a fault, a refusal. -/

namespace Sys2Proof.Machine

/-- The state with its next input taken off the port. -/
def State.takeInput (s : State) : State := { s with port := s.port.tail }

/-- Put an opcode-table word where `step` takes its next input: at the head of the host port. -/
def State.withFetchWord (s : State) (nbits w : Nat) : State :=
  { s with port := .frame (tableFrame nbits w) :: s.port }

/-- What a decoded frame does: the instruction, or the block's or the model's answer to a frame that is
none (30_encoding R82; log 10, log 11). -/
def runDecoded (d : Decoded) (s : State) : Host.Outcome State Fault Refusal :=
  match d with
  | .instr i => exec i s
  | .illegalOp op => .next (rejectOp op s)
  | .badArguments op => .refused (.badArguments op)
  | .unknownIrCode code => .refused (.unknownIrCode code)
  | .unknownCommandWord script index word => .refused (.unknownCommandWord script index word)

/-- One input taken by a block that waits for one. -/
def takeStep (input : Input) (s : State) : Host.Outcome State Fault Refusal :=
  match input with
  | .frame f => runDecoded (decode f) s
  | .adapterReset => .next (adapterReset s)
  | .blockReset => .next (relaunch s)

/-- One step. A configuration that breaks a constraint is refused (00_scope R9; log 12). A reset of the
block is taken in every state (log 19). A block whose scan is never answered takes nothing else
(60_exceptions R347; log 8). Without an input the block idles, `S` unchanged (R353). -/
def step (s : State) : Host.Outcome State Fault Refusal :=
  if configOk s.cfg = false then .refused .badConfiguration
  else
    match s.port with
    | [] => if s.active then .fault .scanUnanswered else .next s
    | .blockReset :: _ => .next (relaunch s.takeInput)
    | input :: _ => if s.active then .fault .scanUnanswered else takeStep input s.takeInput

end Sys2Proof.Machine
end

