-- ==== Sys2Proof/Safety.lean ====
section
/-! DEFINITION. The terms in which the statements speak: what a completed operation leaves, the scans an
instruction load issues, the answers an environment supplies, and the invariants of the block and of the
reference device. -/

namespace Sys2Proof.Machine

/-! ### Completed operations -/

/-- The state a completed operation leaves: its trace and result at the host port, the transient working
state cleared, everything else as it was (10_state R20, R28). -/
def ended (s : State) (trace : List Scan) (r : Result) : State :=
  { s with trace := trace, result := some r, running := none, pos := 0, caps := [], polls := 0 }

/-- An error without a record beside its kind. -/
def plainErr (kind : ErrKind) : Result := .err kind {}

/-- Successful answers with these captures, in order. -/
def oks (cs : List Nat) : List Answer := cs.map Answer.ok

/-- What the environment answers to these scans in order, and the state with the environment after them:
nothing else of the state changes (00_scope R11). -/
def answerScans : List Scan → State → List Answer × State
  | [], s => ([], s)
  | req :: reqs, s =>
    let first := answerScan req s
    let rest := answerScans reqs first.2
    (first.1 :: rest.1, rest.2)

/-- Command-word scans of these 15-bit words, in order (30_encoding R87). -/
def drScans (words : List Nat) : List Scan := words.map (Scan.dr 15)

/-- The cache after a 4-bit code was loaded (40_scan_primitives R115). -/
def loaded (code : Nat) : IrCache := .known (BitVec.ofNat 8 (code % 16))

/-- The scans of `ensure_instruction(code)` under a cache: none on a hit, else one IR scan
(40_scan_primitives R115). -/
def loadScans (cache : IrCache) (code : Nat) : List Scan :=
  if cache = loaded code then [] else [.ir 4 (code % 16)]

/-- The cache after these scans were answered `Ok`: each IR scan loads its value, a DR scan nothing
(40_scan_primitives R111, R113). -/
def cacheAfter (cache : IrCache) (answered : List Scan) : IrCache :=
  answered.foldl (fun cache req =>
    match req with
    | .ir _ v => .known (BitVec.ofNat 8 v)
    | .dr _ _ => cache) cache

/-- How many of these scans are DR scans. -/
def drCount (answered : List Scan) : Nat :=
  (answered.filter fun req =>
    match req with
    | .ir _ _ => false
    | .dr _ _ => true).length

/-- The controller inside `ENTER_PROG`, by the DR scans answered so far (42_program_mode R162). -/
def enterPm (start : Pm) : Nat → Pm
  | 0 => start
  | 1 => .resetAsserted
  | _ => .programEnabled

/-- The controller inside `EXIT_PROG`, by the DR scans answered so far: the two no-op words, then the
disable pattern (42_program_mode R165). -/
def exitPm (start : Pm) (drs : Nat) : Pm := if drs ≤ 2 then start else .programDisabled

/-- An outcome as that of the operation `i`: a stuck run is named by the operation it belongs to
(10_state R28), and nothing else tells two runs apart. -/
def runningAs (i : Instr) : Host.Outcome State Fault Refusal → Host.Outcome State Fault Refusal
  | .next s => .next { s with running := s.running.map fun _ => i }
  | o => o

/-- A bound TAP with the instruction register length that the block expects. -/
def TapFits (s : State) : Prop := s.cfg.tapBound = true ∧ s.cfg.tapIrLen = 4

/-- The scan widths of the reset and enable registers are legal (00_scope R9). -/
def WidthsFit (c : Config) : Prop :=
  (1 ≤ c.resetDrWidth ∧ c.resetDrWidth ≤ 32) ∧ (1 ≤ c.enableDrWidth ∧ c.enableDrWidth ≤ 32)

/-- A memory operation may run: a fitting TAP and an open session (44_memory_ops R240). -/
def SessionReady (s : State) : Prop :=
  TapFits s ∧ s.pm = .commandsActive ∧ s.cfg.cmd = referenceCmd

/-- The scans of `ENTER_PROG` (42_program_mode R162). -/
def enterTrace (s : State) : List Scan :=
  loadScans s.irCache s.cfg.irAvrReset
    ++ [.dr s.cfg.resetDrWidth (s.cfg.resetAssert % 2 ^ s.cfg.resetDrWidth)]
    ++ loadScans (loaded s.cfg.irAvrReset) s.cfg.irProgEnable
    ++ [.dr s.cfg.enableDrWidth (s.cfg.enableSignature % 2 ^ s.cfg.enableDrWidth)]
    ++ loadScans (loaded s.cfg.irProgEnable) s.cfg.irProgCommands

/-- The scans of `EXIT_PROG` with the reference no-op script (42_program_mode R165). -/
def exitTrace (s : State) : List Scan :=
  loadScans s.irCache s.cfg.irProgCommands
    ++ drScans [0x2300, 0x3300]
    ++ loadScans (loaded s.cfg.irProgCommands) s.cfg.irProgEnable
    ++ [.dr s.cfg.enableDrWidth (s.cfg.disablePattern % 2 ^ s.cfg.enableDrWidth)]
    ++ loadScans (loaded s.cfg.irProgEnable) s.cfg.irAvrReset
    ++ [.dr s.cfg.resetDrWidth (s.cfg.resetRelease % 2 ^ s.cfg.resetDrWidth)]

/-- `i` shifts exactly this word: with its scan answered `Ok(c)`, whatever the environment, it completes
with the one capture, its 15 bits, and changes nothing else of the block. -/
def ShiftsWord (i : Instr) (word : Nat) : Prop :=
  ∀ (s t : State) (c : Nat), s.cfg.tapBound = true → s.cfg.cmd = referenceCmd →
    answerScan (.dr 15 word) s = (.ok c, t) →
    exec i s = .next (ended t [.dr 15 word] (.ok (.captures [BitVec.ofNat 15 c])))

/-- The scans of a memory operation up to its polls: the opening load if the cache misses, then the words
(44_memory_ops R240). -/
def operationScans (s : State) (words : List Nat) : List Scan :=
  loadScans s.irCache s.cfg.irProgCommands ++ drScans words

/-- `i` reads by these words: with every scan answered `Ok`, whatever the environment, it completes with
these bytes of the captures and changes nothing else of the block. -/
def ReadsBy (i : Instr) (s : State) (words : List Nat) (bytes : List Nat → List Byte) : Prop :=
  ∀ (opening captured : List Nat) (t : State), captured.length = words.length →
    answerScans (operationScans s words) s = (oks opening ++ oks captured, t) →
    exec i s = .next (ended { t with irCache := loaded s.cfg.irProgCommands }
      (operationScans s words) (.ok (.bytes (bytes captured))))

/-- `i` writes by these words and then polls: with every scan answered `Ok`, whatever the environment, so
many poll captures busy and the next one clear, within the budget, it completes after one poll more than
the busy ones and changes nothing else of the block (44_memory_ops R241). -/
def WritesBy (i : Instr) (s : State) (words : List Nat) (pollWord : Nat) : Prop :=
  ∀ (opening busy : List Nat) (clear : Nat) (t : State),
    opening.length = (operationScans s words).length →
    s.cfg.busyBit ≤ 14 → (∀ c ∈ busy, c.testBit s.cfg.busyBit = true) →
    clear.testBit s.cfg.busyBit = false → busy.length < s.cfg.pollBudget →
    answerScans (operationScans s words ++ drScans (List.replicate (busy.length + 1) pollWord)) s =
      (oks opening ++ oks busy ++ [.ok clear], t) →
    exec i s = .next (ended { t with irCache := loaded s.cfg.irProgCommands }
      (operationScans s words ++ drScans (List.replicate (busy.length + 1) pollWord)) (.ok .empty))

/-- `i` writes by these words and polls a target that stays busy: it fails after exactly `POLL_BUDGET`
polls with `Timeout` and `S.pm = Error` (44_memory_ops R241, R242). -/
def TimesOutAfterBudget (i : Instr) (s : State) (words : List Nat) (pollWord : Nat) : Prop :=
  ∀ (opening busy : List Nat) (t : State),
    opening.length = (operationScans s words).length →
    s.cfg.busyBit ≤ 14 → (∀ c ∈ busy, c.testBit s.cfg.busyBit = true) →
    answerScans (operationScans s words ++ drScans (List.replicate s.cfg.pollBudget pollWord)) s =
      (oks opening ++ oks busy, t) →
    exec i s = .next (ended { t with irCache := loaded s.cfg.irProgCommands, pm := .error }
      (operationScans s words ++ drScans (List.replicate s.cfg.pollBudget pollWord))
      (.err .timeout { polls := some s.cfg.pollBudget }))

/-- `i` writes by these words, and a scan of its busy-poll fails after so many busy captures: the error
carries their number and the transport's value, and `S.pm = Error` (44_memory_ops R241, R242). -/
def FailsDuringPoll (i : Instr) (s : State) (words : List Nat) (pollWord : Nat) : Prop :=
  ∀ (opening busy : List Nat) (e : TransportError) (t : State),
    opening.length = (operationScans s words).length →
    s.cfg.busyBit ≤ 14 → (∀ c ∈ busy, c.testBit s.cfg.busyBit = true) →
    busy.length < s.cfg.pollBudget →
    answerScans (operationScans s words ++ drScans (List.replicate (busy.length + 1) pollWord)) s =
      (oks opening ++ oks busy ++ [.err e], t) →
    exec i s = .next (ended { t with irCache := loaded s.cfg.irProgCommands, pm := .error }
      (operationScans s words ++ drScans (List.replicate (busy.length + 1) pollWord))
      (.err (.transport e) { polls := some busy.length }))

/-- The words of a flash page write under the reference table (44_memory_ops R251). -/
def pageWriteWords (pageWords p : Nat) (data : List Nat) : List Nat :=
  [0x2310, 0x0700 + p * pageWords / 256]
    ++ (List.range pageWords).flatMap (fun k =>
      [0x0300 + (p * pageWords + k) % 256, 0x1300 + data.getD (2 * k) 0,
        0x1700 + data.getD (2 * k + 1) 0, 0x3700, 0x7700, 0x3700])
    ++ [0x3700, 0x3500, 0x3700, 0x3700]

/-- The words of a flash page read under the reference table (44_memory_ops R252). -/
def pageReadWords (pageWords p : Nat) : List Nat :=
  [0x2302] ++ (List.range pageWords).flatMap fun k =>
    [0x0700 + (p * pageWords + k) / 256, 0x0300 + (p * pageWords + k) % 256, 0x3200, 0x3600, 0x3700]

/-! ### The classes of instructions the rules speak of -/

/-- The memory operations (42_program_mode R161, 44_memory_ops R250 to R263). -/
def isMemoryOp : Instr → Bool
  | .chipErase | .flashPageWrite .. | .flashPageRead .. | .eepromWrite .. | .eepromRead ..
  | .fuseHighWrite .. | .fuseLowWrite .. | .lockWrite .. | .fuseHighRead | .fuseLowRead | .lockRead
  | .fusesLockRead | .signatureRead .. | .calibrationRead .. => true
  | _ => false

/-- The operations that poll (44_memory_ops R265, 60_exceptions R340). -/
def isWriteOp : Instr → Bool
  | .chipErase | .flashPageWrite .. | .eepromWrite .. | .fuseHighWrite .. | .fuseLowWrite ..
  | .lockWrite .. => true
  | _ => false

/-- The operations that move the controller (42_program_mode R160): enter, exit, the memory operations
and `READ_FLASH_RANGE`. All others are raw. -/
def movesPm (i : Instr) : Bool :=
  match i with
  | .enterProg | .exitProg | .readFlashRange .. => true
  | i => isMemoryOp i

/-- When the arguments of a memory operation are valid (44_memory_ops R243). -/
def validArgs (c : Config) : Instr → Prop
  | .flashPageWrite p data =>
    p < c.flashWords / c.pageWords ∧ data.length = 2 * c.pageWords ∧ ∀ d ∈ data, d < 256
  | .flashPageRead p => p < c.flashWords / c.pageWords
  | .eepromWrite a d => a < c.eepromBytes ∧ d < 256
  | .eepromRead a => a < c.eepromBytes
  | .fuseHighWrite d => d < 256
  | .fuseLowWrite d => d < 256
  | .lockWrite d => d < 256
  | .signatureRead i => i < c.sigBytes
  | .calibrationRead i => i < c.calBytes
  | _ => True

/-! ### The reference device -/

/-- The device after command words (47_reference_device R306). -/
def deviceAfter (c : Config) (words : List Nat) (d : Device) : Device :=
  words.foldl (fun d w => d.shift c (BitVec.ofNat 15 w)) d

/-- Command words reach the device's pipeline: the programming-commands instruction is loaded, it is not
taken for another register's, and programming is enabled (47_reference_device R303). -/
def PipelineSelected (s : State) : Prop :=
  s.target.ir.toNat = s.cfg.irProgCommands ∧ s.cfg.irProgCommands ≠ s.cfg.irAvrReset ∧
    s.cfg.irProgCommands ≠ s.cfg.irProgEnable ∧ s.target.prog = true

/-- A session open on the reference device, with the reference words, a legal configuration, no failure
injected, block and device agreeing on the instruction register, and the device's memories in canonical
form. -/
def ReferenceSession (s : State) : Prop :=
  configOk s.cfg = true ∧ s.cfg.tapBound = true ∧ s.cfg.cmd = referenceCmd ∧
    s.link = .reference [] ∧ s.pm = .commandsActive ∧ s.irCache = loaded s.cfg.irProgCommands ∧
    PipelineSelected s ∧ s.target.pagebuf.length = s.cfg.pageWords ∧
    s.target.flash.wf ∧ s.target.eeprom.wf

/-- The block in `Idle` over the reference device, ready for a session of its own: a DeviceHandle, the
reference words, three different instruction codes, register values that the device tells apart, and the
device not busy. -/
def ReferenceIdle (s : State) : Prop :=
  configOk s.cfg = true ∧ TapFits s ∧ s.cfg.cmd = referenceCmd ∧ s.link = .reference [] ∧
    s.pm = .idle ∧ (s.cfg.irAvrReset ≠ s.cfg.irProgEnable ∧ s.cfg.irAvrReset ≠ s.cfg.irProgCommands ∧
      s.cfg.irProgEnable ≠ s.cfg.irProgCommands) ∧
    (s.cfg.resetAssert = 1 ∧ s.cfg.resetRelease = 0) ∧
    (s.cfg.enableSignature < 2 ^ s.cfg.enableDrWidth ∧
      s.cfg.disablePattern < 2 ^ s.cfg.enableDrWidth ∧
      s.cfg.enableSignature ≠ s.cfg.disablePattern) ∧
    (∀ v, s.irCache = .known v → v.toNat = s.target.ir.toNat) ∧ s.target.busy = false

/-! ### Invariants -/

/-- What holds of the block after every step (10_state R20, R23, R27, R28; 40_scan_primitives R111,
R115; 45_target_interface R280; 60_exceptions R347): at rest the controller is in one of three states and
nothing transient is left; a Known cache and a DeviceHandle stand on the binding that allowed them; a
running operation's position counts its trace, and it has no result; the poll counter is within the
budget. -/
structure BlockInv (s : State) : Prop where
  restPm : s.active = false → s.pm = .idle ∨ s.pm = .commandsActive ∨ s.pm = .error
  restClean : s.active = false → s.pos = 0 ∧ s.caps = [] ∧ s.polls = 0
  cacheBacked : ∀ v, s.irCache = .known v →
    s.cfg.tapBound = true ∧ 1 ≤ s.cfg.tapIrLen ∧ s.cfg.tapIrLen ≤ 8 ∧ v.toNat < 2 ^ s.cfg.tapIrLen
  handleBacked : s.device = true → TapFits s
  traceCounted : s.active = true → s.trace.length = s.pos
  noResultYet : s.active = true → s.result = none
  pollsBounded : s.polls ≤ s.cfg.pollBudget

/-- What holds of the reference device after every step (47_reference_device R300, 20_memory R59): its
memories are in canonical form and inside their spaces, the page buffer has a page's words, and the
strobe counter is at most 2. -/
structure DeviceInv (s : State) : Prop where
  flashWf : s.target.flash.wf
  eepromWf : s.target.eeprom.wf
  flashInSpace : 0 < s.cfg.flashWords → ∀ c ∈ s.target.flash, c.1 < 2 * s.cfg.flashWords
  eepromInSpace : 0 < s.cfg.eepromBytes → ∀ c ∈ s.target.eeprom, c.1 < s.cfg.eepromBytes
  pageSized : s.target.pagebuf.length = s.cfg.pageWords
  strobeBounded : s.target.trig ≤ 2

end Sys2Proof.Machine
end

