-- ==== Sys2Proof/Certificates/Slice0/Obligations.lean ====
section
/-! DEFINITION. The statements for the provers. Each docstring names the rule or the section of spec/ it
formalises; OBLIGATIONS.json lists them. -/

open Sys2Proof Sys2Proof.Machine

/-! ### Encoding -/

/-- The decoder reads back every encoded instruction, with every operand (30_encoding sections 1 to 3;
43_command_words section 1). The frame's form is the model's choice (log 9, log 10, log 11). -/
def Obligations.DecodeInvertsEncode : Prop :=
  ∀ i : Instr, decode (encode i) = .instr i

/-- A frame that decodes to an instruction is that instruction's own encoding: no bit of a frame is
dropped, and no two frames mean the same (30_encoding sections 1 to 3; log 9, log 10, log 11). -/
def Obligations.DecodedFrameIsTheEncoding : Prop :=
  ∀ (f : Frame) (i : Instr), decode f = .instr i → encode i = f

/-- A few words as the tables of 30_encoding and 43_command_words write them, decoded at their places. -/
def Obligations.HandWrittenWordsDecode : Prop :=
  decode (.hostOp 0x0A [.nat 3, .list [0x11, 0x22]]) = .instr (.flashPageWrite 3 [0x11, 0x22]) ∧
    decode (.irScan 0b1100) = .instr .irAvrReset ∧
    decode (.cmdWord .ceSeq 1 0b011000110000000) = .instr .ceSeq1 ∧
    decode (.cmdWord .addrHi 0 0b000011100000001) = .instr (.addrHi 0x01) ∧
    decode (.cmdWord .latch 1 0b111011100000000) = .instr .latch1 ∧
    decode (.cmdWord .erRead 0 0b011001110100101) = .instr (.erRead0 0xA5) ∧
    decode (.cmdWord .lkData 0 0b001001111111100) = .instr (.lkData 0b111100)

/-- The op codes 0x00 and 0x19 to 0xFF, and no others, are illegal (30_encoding section 1); taken at the
host port they end in `Err(IllegalOp)` with the op code in the error record (60_exceptions section 1),
without a scan and without a change of `S`. That the input leaves the port is the model's choice
(log 2). -/
def Obligations.IllegalOpCodesRefused : Prop :=
  ∀ (op : Byte) (args : List Arg),
    (decode (.hostOp op args) = .illegalOp op ↔ (op = 0x00 ∨ 0x19 ≤ op.toNat)) ∧
    ∀ (s : State) (rest : List Input), configOk s.cfg = true → s.active = false →
      s.port = .frame (.hostOp op args) :: rest → (op = 0x00 ∨ 0x19 ≤ op.toNat) →
      step s = .next (ended { s with port := rest } [] (.err .illegalOp { op := some op }))

/-! ### Steps -/

/-- A block that waits for an input and finds a frame at its port runs exec of the instruction the frame
decodes to, the input taken off the port; without an input it idles with its state unchanged (00_scope
section 3, 60_exceptions section 8; the port is the model's, log 2). -/
def Obligations.StepRunsDecodedInstruction : Prop :=
  ∀ s : State, configOk s.cfg = true → s.active = false →
    (∀ (f : Frame) (rest : List Input) (i : Instr), s.port = .frame f :: rest →
      decode f = .instr i → step s = exec i { s with port := rest }) ∧
    (s.port = [] → step s = .next s)

/-- Every instruction answers a next state in every state: none ends in a fault or a refusal. Errors are
results (60_exceptions section 4). That a scan which is never answered leaves a next state, the stuck
one, is the model's reading of "no final state" (log 8), and that the scan rows are instructions is its
choice (log 9). -/
def Obligations.EveryInstructionAnswersANextState : Prop :=
  ∀ (i : Instr) (s : State), ∃ t, exec i s = .next t

/-- The event `ADAPTER_RESET`, delivered between operations, sets only `S.ir_cache <- Unknown` of `S`
(60_exceptions section 5, 70_reset_and_hazards section 1). That it leaves the last trace and result as
they are (log 20), and that the port loses the input (log 2), are the model's choices. -/
def Obligations.AdapterResetForgetsTheCacheOnly : Prop :=
  ∀ (s : State) (rest : List Input), configOk s.cfg = true → s.active = false →
    s.port = .adapterReset :: rest → step s = .next { s with port := rest, irCache := .unknown }

/-- Any operation is stuck exactly when the environment answers one of its scans with nothing. That scan
is its last, every scan before it was answered `Ok`, it has no result, its position is which operation it
is and how many scans it issued, and it keeps `S` as it was at that scan: the handle; the cache, as the
answered loads left it and not forgotten; the controller, which enter and exit move by their answered data
scans, raw and memory operations do not move, and no silent scan puts in `Error`. `WRITE_DR` is given
whole. No further input but a block reset is taken (60_exceptions section 5, 10_state section 3). That the
run then stops by the named fault is the model's form of "no final state" (log 8, log 19). -/
def Obligations.UnansweredScanHasNoFinalState : Prop :=
  (∀ (i : Instr) (s t : State), exec i s = .next t →
    (t.active = true ↔ Answer.silent ∈ (answerScans t.trace s).1) ∧
    (t.active = true →
      t.running = some i ∧ t.pos = t.trace.length ∧ t.result = none ∧
      (∃ captured, (answerScans t.trace s).1 = oks captured ++ [.silent]) ∧
      t.irCache = cacheAfter s.irCache t.trace.dropLast ∧ t.device = s.device ∧
      (t.pm = .error → s.pm = .error) ∧
      (movesPm i = false ∨ isMemoryOp i = true → t.pm = s.pm) ∧
      (i = .enterProg → t.pm = enterPm s.pm (drCount t.trace.dropLast)) ∧
      (i = .exitProg → t.pm = exitPm s.pm (drCount t.trace.dropLast)))) ∧
  (∀ (s t : State) (w v : Nat), s.cfg.tapBound = true → 1 ≤ w → w ≤ 32 →
    answerScan (.dr w (v % 2 ^ w)) s = (.silent, t) →
    exec (.writeDr w v) s = .next { t with
      trace := [.dr w (v % 2 ^ w)], result := none, running := some (.writeDr w v), pos := 1,
      caps := [], polls := 0 }) ∧
  ∀ s : State, configOk s.cfg = true → s.active = true → s.port.head? ≠ some .blockReset →
    step s = .fault .scanUnanswered

/-- A configuration is run exactly when it meets the constraints of 00_scope section 4; one that breaks a
constraint is refused (log 12). -/
def Obligations.BadConfigurationsRefused : Prop :=
  ∀ s : State,
    (step s = .refused .badConfiguration ↔
      ¬ (1 ≤ s.cfg.pollBudget ∧ (∃ k, s.cfg.pageWords = 2 ^ k) ∧ 1 ≤ s.cfg.pageWords ∧
        s.cfg.pageWords ≤ 256 ∧ s.cfg.pageWords ∣ s.cfg.flashWords ∧ s.cfg.flashWords ≤ 65536 ∧
        s.cfg.eepromBytes ≤ 65536 ∧ (1 ≤ s.cfg.sigBytes ∧ s.cfg.sigBytes ≤ 256) ∧
        (1 ≤ s.cfg.calBytes ∧ s.cfg.calBytes ≤ 256) ∧ s.cfg.busyBit ≤ 14 ∧ 1 ≤ s.cfg.tapIrLen ∧
        (s.cfg.irAvrReset < 16 ∧ s.cfg.irProgEnable < 16 ∧ s.cfg.irProgCommands < 16) ∧
        WidthsFit s.cfg))

/-! ### Reset -/

/-- 10_state R37: the clean launch. The target's state is not known to the block: the environment of the
reset state answers by draws. -/
def Obligations.ResetIsTheCleanLaunch : Prop :=
  State.reset.irCache = .unknown ∧ State.reset.pm = .idle ∧ State.reset.device = false ∧
    State.reset.active = false ∧ State.reset.pos = 0 ∧ State.reset.caps = [] ∧
    State.reset.polls = 0 ∧ (∃ n, State.reset.link = .free [] n) ∧ statusWord State.reset = 0x0000

/-- A reset of the block launches it again in every state, in a session and out of it: `S` as after the
clean launch, the target and its configuration as they were (70_reset_and_hazards section 1). That it
comes as an input, and ends a stuck operation, is the model's choice (log 19). -/
def Obligations.BlockResetLaunchesAgain : Prop :=
  ∀ (s : State) (rest : List Input), configOk s.cfg = true → s.port = .blockReset :: rest →
    ∃ t, step s = .next t ∧ t.irCache = .unknown ∧ t.pm = .idle ∧ t.device = false ∧
      t.active = false ∧ t.pos = 0 ∧ t.caps = [] ∧ t.polls = 0 ∧ statusWord t = 0x0000 ∧
      t.cfg = s.cfg ∧ t.link = s.link ∧ t.target = s.target ∧ t.port = rest

/-! ### Scan primitives and instruction cache -/

/-- 40_scan_primitives R111: `WRITE_IR w, v`, its encoding, its checks in order, its scan, and the cache
after a success and after a transport failure. -/
def Obligations.WriteIrLoadsTheInstruction : Prop :=
  ∀ (w v : Nat) (s : State),
    decode (.hostOp 0x02 [.nat w, .nat v]) = .instr (.writeIr w v) ∧
    (s.cfg.tapBound = false →
      exec (.writeIr w v) s = .next (ended s [] (plainErr .invalidTap))) ∧
    (s.cfg.tapBound = true → w = 0 ∨ 8 < w →
      exec (.writeIr w v) s = .next (ended s [] (plainErr .widthOverflow))) ∧
    (s.cfg.tapBound = true → 1 ≤ w → w ≤ 8 → w ≠ s.cfg.tapIrLen →
      exec (.writeIr w v) s = .next (ended s [] (plainErr .widthMismatch))) ∧
    (s.cfg.tapBound = true → 1 ≤ w → w ≤ 8 → w = s.cfg.tapIrLen → ∀ t : State,
      (∀ c, answerScan (.ir w (v % 2 ^ w)) s = (.ok c, t) →
        exec (.writeIr w v) s =
          .next (ended { t with irCache := .known (BitVec.ofNat 8 (v % 2 ^ w)) }
            [.ir w (v % 2 ^ w)] (.ok .empty))) ∧
      (∀ e, answerScan (.ir w (v % 2 ^ w)) s = (.err e, t) →
        exec (.writeIr w v) s =
          .next (ended { t with irCache := .unknown }
            [.ir w (v % 2 ^ w)] (plainErr (.transport e)))))

/-- 40_scan_primitives R113: `WRITE_DR w, v`, its encoding, its checks in order, its scan and its result:
the capture, its low `w` bits. -/
def Obligations.WriteDrReturnsTheCapture : Prop :=
  ∀ (w v : Nat) (s : State),
    decode (.hostOp 0x03 [.nat w, .nat v]) = .instr (.writeDr w v) ∧
    (s.cfg.tapBound = false →
      exec (.writeDr w v) s = .next (ended s [] (plainErr .invalidTap))) ∧
    (s.cfg.tapBound = true → w = 0 ∨ 32 < w →
      exec (.writeDr w v) s = .next (ended s [] (plainErr .widthOverflow))) ∧
    (s.cfg.tapBound = true → 1 ≤ w → w ≤ 32 → ∀ t : State,
      (∀ c, answerScan (.dr w (v % 2 ^ w)) s = (.ok c, t) →
        ∃ d : BitVec 32, d.toNat = c % 2 ^ w ∧
          exec (.writeDr w v) s =
            .next (ended t [.dr w (v % 2 ^ w)] (.ok (.capture d)))) ∧
      (∀ e, answerScan (.dr w (v % 2 ^ w)) s = (.err e, t) →
        exec (.writeDr w v) s =
          .next (ended t [.dr w (v % 2 ^ w)] (plainErr (.transport e)))))

/-- 40_scan_primitives R115: `ENSURE_IR d`, its encoding; on a hit no scan, no check and no change, even
for an unbound TAP; on a miss exactly `write_instruction` of the low 4 bits, whatever the environment (a
run that is stuck is named `ENSURE_IR`). -/
def Obligations.EnsureIrScansOnAMissOnly : Prop :=
  ∀ (d : Nat) (s : State),
    decode (.hostOp 0x04 [.nat d]) = .instr (.ensureIr d) ∧
    (s.irCache = loaded d → exec (.ensureIr d) s = .next (ended s [] (.ok .empty))) ∧
    (s.irCache ≠ loaded d →
      exec (.ensureIr d) s = runningAs (.ensureIr d) (exec (.writeIr 4 (d % 16)) s)) ∧
    (s.irCache ≠ loaded d → TapFits s → ∀ (c : Nat) (t : State),
      answerScan (.ir 4 (d % 16)) s = (.ok c, t) →
      exec (.ensureIr d) s = .next (ended { t with irCache := loaded d }
        [.ir 4 (d % 16)] (.ok .empty)))

/-- 40_scan_primitives R116: `INVALIDATE_IR` forces the cache unknown, in every controller state, and does
nothing else. -/
def Obligations.InvalidateIrForgetsTheCache : Prop :=
  ∀ s : State, decode (.hostOp 0x05 []) = .instr .invalidateIr ∧
    exec .invalidateIr s =
      .next (ended { s with irCache := .unknown } [] (.ok .empty))

/-- An `ENSURE_IR` that succeeds scans at most once, and as long as the cache stays as it left it, a call
with equal low 4 bits issues no scan and changes nothing (40_scan_primitives section 4; the spec derives
this form of the caching law from `WRITE_IR` and `ENSURE_IR`). -/
def Obligations.RepeatedEnsureIssuesNoScan : Prop :=
  ∀ (d d' : Nat) (s t u : State), exec (.ensureIr d) s = .next t →
    t.result = some (.ok .empty) → u.irCache = t.irCache → d' % 16 = d % 16 →
    t.trace.length ≤ 1 ∧ exec (.ensureIr d') u = .next (ended u [] (.ok .empty))

/-! ### Command executor -/

/-- `RUN_SCRIPT` with every scan answered `Ok` shifts each word's low 15 bits in order and returns each
capture. The empty script scans and checks nothing; on an unbound TAP any other fails at its first word
with an empty partial result (41_command_executor section 1). -/
def Obligations.RunScriptReturnsEveryCapture : Prop :=
  (∀ s : State, exec (.runScript []) s = .next (ended s [] (.ok (.captures [])))) ∧
  (∀ (s : State) (w : Nat) (words : List Nat), s.cfg.tapBound = false →
    exec (.runScript (w :: words)) s =
      .next (ended s [] (.err .invalidTap { partialCaps := some [] }))) ∧
  ∀ (s t : State) (words captured : List Nat), s.cfg.tapBound = true →
    answerScans (drScans (words.map (· % 2 ^ 15))) s = (oks captured, t) →
    exec (.runScript words) s =
      .next (ended t (drScans (words.map (· % 2 ^ 15)))
        (.ok (.captures (captured.map (BitVec.ofNat 15)))))

/-- 41_command_executor R143: a scan failure aborts the script at once; the error carries the captures
of the words before the failed one; no later word is shifted; `S` does not change. -/
def Obligations.RunScriptFailureCarriesThePartialResult : Prop :=
  ∀ (s t : State) (before later captured : List Nat) (failed : Nat) (e : TransportError),
    s.cfg.tapBound = true →
    answerScans (drScans ((before ++ [failed]).map (· % 2 ^ 15))) s =
      (oks captured ++ [.err e], t) →
    captured.length = before.length ∧
    exec (.runScript (before ++ failed :: later)) s =
      .next (ended t (drScans ((before ++ [failed]).map (· % 2 ^ 15)))
        (.err (.transport e) { partialCaps := some (captured.map (BitVec.ofNat 15)) }))

/-- 41_command_executor R146: a script of length N that succeeds returns exactly N results, and one that
fails fewer, whatever the environment answers. -/
def Obligations.RunScriptResultCount : Prop :=
  ∀ (words : List Nat) (s t : State), exec (.runScript words) s = .next t →
    (∀ data, t.result = some (.ok data) → ∃ cs, data = .captures cs ∧ cs.length = words.length) ∧
    (∀ kind info, t.result = some (.err kind info) →
      ∃ cs, info.partialCaps = some cs ∧ cs.length < words.length)

/-- The pipeline on the reference device (41_command_executor section 1, 47_reference_device section 3):
capture `i` is the device's response to word `i-1`, and capture 0 the response from before the script. -/
def Obligations.CapturesAnswerThePreviousWord : Prop :=
  ∀ (s : State) (words : List Nat), s.cfg.tapBound = true → s.link = .reference [] →
    PipelineSelected s →
    exec (.runScript words) s =
      .next (ended { s with target := deviceAfter s.cfg words s.target }
        (drScans (words.map (· % 2 ^ 15)))
        (.ok (.captures ((List.range words.length).map fun k =>
          (deviceAfter s.cfg (words.take k) s.target).resp))))

/-! ### Scan rows of the opcode table -/

/-- The three IR rows: each is the block's own IR scan of the configured 4-bit code, as `WRITE_IR` would
issue it, and with the scan answered it leaves the code in the cache (30_encoding section 2). That a row
runs as an instruction by itself, and is named as running, is the model's choice (log 9). -/
def Obligations.IrRowsScanTheirCode : Prop :=
  ∀ s : State,
    ∀ p ∈ [(Instr.irAvrReset, s.cfg.irAvrReset), (.irProgEnable, s.cfg.irProgEnable),
      (.irProgCommands, s.cfg.irProgCommands)],
    exec p.1 s = runningAs p.1 (exec (.writeIr 4 p.2) s) ∧
      ∀ (c : Nat) (t : State), TapFits s → answerScan (.ir 4 (p.2 % 16)) s = (.ok c, t) →
        exec p.1 s = .next (ended { t with irCache := loaded p.2 }
          [.ir 4 (p.2 % 16)] (.ok .empty))

/-- The chip-erase, address, data and latch rows shift the words of 43_command_words sections 2 and 3
(log 9). -/
def Obligations.EraseAddressAndDataRowsShiftTheirWord : Prop :=
  (∀ p ∈ [(Instr.ceSeq0, 0x2380), (.ceSeq1, 0x3180), (.ceSeq2, 0x3380), (.ceSeq3, 0x3380),
      (.cePoll, 0x3380), (.fwEnter, 0x2310), (.latch0, 0x3700), (.latch1, 0x7700),
      (.latch2, 0x3700)], ShiftsWord p.1 p.2) ∧
  ∀ b : Byte, ∀ p ∈ [(Instr.addrHi b, 0x0700 + b.toNat), (.addrLo b, 0x0300 + b.toNat),
      (.dataLo b, 0x1300 + b.toNat), (.dataHi b, 0x1700 + b.toNat)], ShiftsWord p.1 p.2

/-- The flash and EEPROM rows shift the words of 43_command_words sections 4 and 5 (log 9). -/
def Obligations.FlashAndEepromRowsShiftTheirWord : Prop :=
  (∀ p ∈ [(Instr.fwWrite0, 0x3700), (.fwWrite1, 0x3500), (.fwWrite2, 0x3700), (.fwWrite3, 0x3700),
      (.fwPoll, 0x3700), (.frEnter, 0x2302), (.frRead0, 0x3200), (.frRead1, 0x3600),
      (.frRead2, 0x3700), (.ewEnter, 0x2311), (.ewWrite0, 0x3300), (.ewWrite1, 0x3100),
      (.ewWrite2, 0x3300), (.ewWrite3, 0x3300), (.ewPoll, 0x3300), (.erEnter, 0x2303),
      (.erRead1, 0x3200), (.erRead2, 0x3300)], ShiftsWord p.1 p.2) ∧
  ∀ b : Byte, ShiftsWord (.erRead0 b) (0x3300 + b.toNat)

/-- The fuse and lock write rows shift the words of 43_command_words section 6 (log 9). -/
def Obligations.FuseAndLockWriteRowsShiftTheirWord : Prop :=
  (∀ p ∈ [(Instr.fuEnter, 0x2340), (.fuhWrite0, 0x3700), (.fuhWrite1, 0x3500), (.fuhWrite2, 0x3700),
      (.fuhWrite3, 0x3700), (.fuhPoll, 0x3700), (.fulWrite0, 0x3300), (.fulWrite1, 0x3100),
      (.fulWrite2, 0x3300), (.fulWrite3, 0x3300), (.fulPoll, 0x3300), (.lkEnter, 0x2320),
      (.lkWrite0, 0x3300), (.lkWrite1, 0x3100), (.lkWrite2, 0x3300), (.lkWrite3, 0x3300),
      (.lkPoll, 0x3300)], ShiftsWord p.1 p.2) ∧
  ∀ b : BitVec 6, ShiftsWord (.lkData b) (0x13C0 + b.toNat)

/-- The fuse, lock, signature and calibration read rows and the no-op rows shift the words of
43_command_words sections 7 to 9 (log 9). -/
def Obligations.ReadAndNopRowsShiftTheirWord : Prop :=
  ∀ p ∈ [(Instr.flrEnter, 0x2304), (.fuhRead0, 0x3E00), (.fuhRead1, 0x3F00), (.fulRead0, 0x3200),
      (.fulRead1, 0x3300), (.lkRead0, 0x3600), (.lkRead1, 0x3700), (.flrAll0, 0x3E00),
      (.flrAll1, 0x3200), (.flrAll2, 0x3600), (.flrAll3, 0x3700), (.sigEnter, 0x2308),
      (.sigRead0, 0x3200), (.sigRead1, 0x3300), (.calEnter, 0x2308), (.calRead0, 0x3600),
      (.calRead1, 0x3700), (.nop0, 0x2300), (.nop1, 0x3300)], ShiftsWord p.1 p.2

/-! ### Program mode -/

/-- `ENTER_PROG` from `Idle` with every scan answered `Ok`: the scans of the enter sequence in order, each
load through the cache, ending in `CommandsActive` with the programming-commands instruction cached
(42_program_mode section 2). -/
def Obligations.EnterProgCompletes : Prop :=
  ∀ (s t : State) (captured : List Nat), TapFits s → WidthsFit s.cfg → s.pm = .idle →
    answerScans (enterTrace s) s = (oks captured, t) →
    exec .enterProg s =
      .next (ended { t with pm := .commandsActive, irCache := loaded s.cfg.irProgCommands }
        (enterTrace s) (.ok .empty))

/-- `EXIT_PROG` from any state but `Idle`, `Error` among them, with every scan answered `Ok`: the scans of
the exit sequence in order, ending in `Idle` with the reset instruction cached (42_program_mode
section 3). -/
def Obligations.ExitProgCompletes : Prop :=
  ∀ (s t : State) (captured : List Nat), TapFits s → WidthsFit s.cfg →
    s.cfg.cmd = referenceCmd → s.pm ≠ .idle → answerScans (exitTrace s) s = (oks captured, t) →
    exec .exitProg s =
      .next (ended { t with pm := .idle, irCache := loaded s.cfg.irAvrReset }
        (exitTrace s) (.ok .empty))

/-- 42_program_mode R163: a second `ENTER_PROG` without an exit is rejected with `AlreadyActive`, without
a scan, `S.pm` and `S.ir_cache` as they were; so is one in any state but `Idle`. -/
def Obligations.SecondEnterRejected : Prop :=
  ∀ s : State, s.pm ≠ .idle →
    exec .enterProg s = .next (ended s [] (plainErr .alreadyActive))

/-- `EXIT_PROG` after a successful `ENTER_PROG` succeeds and returns the controller to `Idle` when every
scan of the exit is answered `Ok`; a transport failure during it leaves `Error` (42_program_mode
section 3; the spec derives this form of the round-trip law from `EXIT_PROG`). The no-op words are those
of the reference table (log 5). -/
def Obligations.ExitAfterEnterReturnsToIdle : Prop :=
  ∀ s t : State, TapFits s → WidthsFit s.cfg → s.cfg.cmd = referenceCmd →
    exec .enterProg s = .next t → t.result = some (.ok .empty) →
    t.pm = .commandsActive ∧ ∃ u, exec .exitProg t = .next u ∧
      (∀ captured, (answerScans (exitTrace t) t).1 = oks captured →
        u.pm = .idle ∧ u.result = some (.ok .empty)) ∧
      (∀ e info, u.result = some (.err (.transport e) info) → u.pm = .error)

/-- A failure of the enter or exit sequence, wherever it falls, leaves `S.pm = Error`; a success of enter
leaves `CommandsActive` with the programming-commands instruction cached, and one of exit leaves `Idle`
with the reset instruction cached, whatever the environment (42_program_mode sections 1 to 3). -/
def Obligations.FailedTransitionLeavesError : Prop :=
  ∀ s t : State,
    (exec .enterProg s = .next t →
      (∀ kind info, t.result = some (.err kind info) → s.pm = .idle → t.pm = .error) ∧
      (∀ data, t.result = some (.ok data) →
        s.pm = .idle ∧ data = .empty ∧ t.pm = .commandsActive ∧
          t.irCache = loaded s.cfg.irProgCommands)) ∧
    (exec .exitProg s = .next t →
      (∀ kind info, t.result = some (.err kind info) → s.pm ≠ .idle → t.pm = .error) ∧
      (∀ data, t.result = some (.ok data) →
        s.pm ≠ .idle ∧ data = .empty ∧ t.pm = .idle ∧ t.irCache = loaded s.cfg.irAvrReset))

/-- From `Error` the one way on is `EXIT_PROG`: enter and every memory operation are rejected there
without a scan and without a change of `S`, and in `Idle` so are exit and every memory operation
(42_program_mode section 1, 44_memory_ops section 1). -/
def Obligations.OperationsRejectedByTheControllerState : Prop :=
  ∀ s : State,
    (s.pm = .error → exec .enterProg s = .next (ended s [] (plainErr .alreadyActive))) ∧
    (s.pm = .idle → exec .exitProg s = .next (ended s [] (plainErr .notActive))) ∧
    ∀ i : Instr, isMemoryOp i = true → s.pm ≠ .commandsActive →
      exec i s = .next (ended s [] (plainErr .notActive))

/-- Raw operations never move the controller: every instruction but enter, exit, the memory operations
and `READ_FLASH_RANGE` leaves `S.pm` as it was, whatever the environment answers (42_program_mode
section 1). The scan rows count as raw (log 9). -/
def Obligations.RawOperationsKeepTheControllerState : Prop :=
  ∀ (i : Instr) (s t : State), movesPm i = false → exec i s = .next t → t.pm = s.pm

/-! ### Memory operations -/

/-- `CHIP_ERASE` completes by its four words and its polls (44_memory_ops section 2). -/
def Obligations.ChipEraseCompletes : Prop :=
  ∀ s : State, SessionReady s → WritesBy .chipErase s [0x2380, 0x3180, 0x3380, 0x3380] 0x3380

/-- `FLASH_PAGE_WRITE` completes by its `6 + 6*PAGE_WORDS` words and its polls (44_memory_ops
section 3). -/
def Obligations.FlashPageWriteCompletes : Prop :=
  ∀ (s : State) (p : Nat) (data : List Nat), SessionReady s → configOk s.cfg = true →
    validArgs s.cfg (.flashPageWrite p data) →
    (pageWriteWords s.cfg.pageWords p data).length = 6 + 6 * s.cfg.pageWords ∧
      WritesBy (.flashPageWrite p data) s (pageWriteWords s.cfg.pageWords p data) 0x3700

/-- `FLASH_PAGE_READ` completes by its `1 + 5*PAGE_WORDS` words; byte `2k` is in capture `4 + 5k` and byte
`2k + 1` in capture `5 + 5k` (44_memory_ops section 3). -/
def Obligations.FlashPageReadCompletes : Prop :=
  ∀ (s : State) (p : Nat), SessionReady s → configOk s.cfg = true →
    validArgs s.cfg (.flashPageRead p) →
    (pageReadWords s.cfg.pageWords p).length = 1 + 5 * s.cfg.pageWords ∧
      ReadsBy (.flashPageRead p) s (pageReadWords s.cfg.pageWords p) fun cs =>
        (List.range s.cfg.pageWords).flatMap fun k =>
          [BitVec.ofNat 8 (cs.getD (4 + 5 * k) 0), BitVec.ofNat 8 (cs.getD (5 + 5 * k) 0)]

/-- `EEPROM_WRITE` and `EEPROM_READ` complete by their words (44_memory_ops section 4). -/
def Obligations.EepromOperationsComplete : Prop :=
  ∀ (s : State) (a d : Nat), SessionReady s → configOk s.cfg = true →
    (validArgs s.cfg (.eepromWrite a d) →
      WritesBy (.eepromWrite a d) s [0x2311, 0x0700 + a / 256, 0x0300 + a % 256, 0x1300 + d,
        0x3700, 0x7700, 0x3700, 0x3300, 0x3100, 0x3300, 0x3300] 0x3300) ∧
    (validArgs s.cfg (.eepromRead a) →
      ReadsBy (.eepromRead a) s [0x2303, 0x0700 + a / 256, 0x0300 + a % 256, 0x3300 + a % 256,
        0x3200, 0x3300] fun cs => [BitVec.ofNat 8 (cs.getD 5 0)])

/-- The fuse and lock writes complete by their words and polls; of a lock byte only bits 5:0 are sent
(44_memory_ops section 5). -/
def Obligations.FuseAndLockWritesComplete : Prop :=
  ∀ (s : State) (d : Nat), SessionReady s → d < 256 →
    WritesBy (.fuseHighWrite d) s [0x2340, 0x1300 + d, 0x3700, 0x3500, 0x3700, 0x3700] 0x3700 ∧
    WritesBy (.fuseLowWrite d) s [0x2340, 0x1300 + d, 0x3300, 0x3100, 0x3300, 0x3300] 0x3300 ∧
    WritesBy (.lockWrite d) s [0x2320, 0x13C0 + d % 64, 0x3300, 0x3100, 0x3300, 0x3300] 0x3300

/-- The fuse and lock reads complete by their words; the lock byte is bits 5:0 of its capture
(44_memory_ops section 5). -/
def Obligations.FuseAndLockReadsComplete : Prop :=
  ∀ s : State, SessionReady s →
    ReadsBy .fuseHighRead s [0x2304, 0x3E00, 0x3F00] (fun cs => [BitVec.ofNat 8 (cs.getD 2 0)]) ∧
    ReadsBy .fuseLowRead s [0x2304, 0x3200, 0x3300] (fun cs => [BitVec.ofNat 8 (cs.getD 2 0)]) ∧
    ReadsBy .lockRead s [0x2304, 0x3600, 0x3700] (fun cs => [BitVec.ofNat 8 (cs.getD 2 0 % 64)]) ∧
    ReadsBy .fusesLockRead s [0x2304, 0x3E00, 0x3200, 0x3600, 0x3700] fun cs =>
      [BitVec.ofNat 8 (cs.getD 2 0), BitVec.ofNat 8 (cs.getD 3 0),
        BitVec.ofNat 8 (cs.getD 4 0 % 64)]

/-- The signature and calibration reads complete by their words (44_memory_ops section 6). -/
def Obligations.SignatureAndCalibrationReadsComplete : Prop :=
  ∀ (s : State) (i : Nat), SessionReady s → configOk s.cfg = true →
    (validArgs s.cfg (.signatureRead i) →
      ReadsBy (.signatureRead i) s [0x2308, 0x0300 + i, 0x3200, 0x3300] fun cs =>
        [BitVec.ofNat 8 (cs.getD 3 0)]) ∧
    (validArgs s.cfg (.calibrationRead i) →
      ReadsBy (.calibrationRead i) s [0x2308, 0x0300 + i, 0x3600, 0x3700] fun cs =>
        [BitVec.ofNat 8 (cs.getD 3 0)])

/-- 44_memory_ops R243: in a session a memory operation ends in `BadArgument` exactly when its argument
is not valid; it then issues no scan and leaves `S` unchanged. -/
def Obligations.BadArgumentsRefusedBeforeAnyScan : Prop :=
  ∀ (i : Instr) (s t : State), isMemoryOp i = true → s.pm = .commandsActive →
    (¬ validArgs s.cfg i → exec i s = .next (ended s [] (plainErr .badArgument))) ∧
    (validArgs s.cfg i → exec i s = .next t → ∀ info, t.result ≠ some (.err .badArgument info))

/-- A memory operation that fails after its checks leaves `S.pm = Error` and returns no captures, and no
poll count unless it is one that polls; one that succeeds leaves the session open (44_memory_ops
section 1, 60_exceptions section 1). -/
def Obligations.FailedMemoryOperationLeavesError : Prop :=
  ∀ (i : Instr) (s t : State), isMemoryOp i = true → s.pm = .commandsActive →
    validArgs s.cfg i → exec i s = .next t →
    (∀ kind info, t.result = some (.err kind info) → t.pm = .error ∧
      info.partialCaps = none ∧ info.op = none ∧ (isWriteOp i = false → info.polls = none)) ∧
    (∀ data, t.result = some (.ok data) → t.pm = .commandsActive)

/-- A write whose target stays busy fails after exactly `POLL_BUDGET` polls (44_memory_ops section 1). -/
def Obligations.BusyTargetTimesOutAfterTheBudget : Prop :=
  ∀ (s : State) (p a d : Nat) (data : List Nat), SessionReady s → configOk s.cfg = true →
    TimesOutAfterBudget .chipErase s [0x2380, 0x3180, 0x3380, 0x3380] 0x3380 ∧
    (validArgs s.cfg (.flashPageWrite p data) →
      TimesOutAfterBudget (.flashPageWrite p data) s
        (pageWriteWords s.cfg.pageWords p data) 0x3700) ∧
    (validArgs s.cfg (.eepromWrite a d) →
      TimesOutAfterBudget (.eepromWrite a d) s [0x2311, 0x0700 + a / 256, 0x0300 + a % 256,
        0x1300 + d, 0x3700, 0x7700, 0x3700, 0x3300, 0x3100, 0x3300, 0x3300] 0x3300) ∧
    (d < 256 →
      TimesOutAfterBudget (.fuseHighWrite d) s
        [0x2340, 0x1300 + d, 0x3700, 0x3500, 0x3700, 0x3700] 0x3700 ∧
      TimesOutAfterBudget (.fuseLowWrite d) s
        [0x2340, 0x1300 + d, 0x3300, 0x3100, 0x3300, 0x3300] 0x3300 ∧
      TimesOutAfterBudget (.lockWrite d) s
        [0x2320, 0x13C0 + d % 64, 0x3300, 0x3100, 0x3300, 0x3300] 0x3300)

/-- A write whose poll scan fails records the transport's value and how many polls were complete, and
leaves `S.pm = Error`, however many of its polls were busy before (44_memory_ops section 1, 60_exceptions
section 1). -/
def Obligations.FailedPollRecordsThePollCount : Prop :=
  ∀ (s : State) (p a d : Nat) (data : List Nat), SessionReady s → configOk s.cfg = true →
    FailsDuringPoll .chipErase s [0x2380, 0x3180, 0x3380, 0x3380] 0x3380 ∧
    (validArgs s.cfg (.flashPageWrite p data) →
      FailsDuringPoll (.flashPageWrite p data) s
        (pageWriteWords s.cfg.pageWords p data) 0x3700) ∧
    (validArgs s.cfg (.eepromWrite a d) →
      FailsDuringPoll (.eepromWrite a d) s [0x2311, 0x0700 + a / 256, 0x0300 + a % 256,
        0x1300 + d, 0x3700, 0x7700, 0x3700, 0x3300, 0x3100, 0x3300, 0x3300] 0x3300) ∧
    (d < 256 →
      FailsDuringPoll (.fuseHighWrite d) s
        [0x2340, 0x1300 + d, 0x3700, 0x3500, 0x3700, 0x3700] 0x3700 ∧
      FailsDuringPoll (.fuseLowWrite d) s
        [0x2340, 0x1300 + d, 0x3300, 0x3100, 0x3300, 0x3300] 0x3300 ∧
      FailsDuringPoll (.lockWrite d) s
        [0x2320, 0x13C0 + d % 64, 0x3300, 0x3100, 0x3300, 0x3300] 0x3300)

/-- Only the write operations end in `Timeout`, and then with `polls = POLL_BUDGET` (60_exceptions
section 1; 44_memory_ops section 7). -/
def Obligations.OnlyWritesTimeOut : Prop :=
  ∀ (i : Instr) (s t : State) (info : ErrInfo), exec i s = .next t →
    t.result = some (.err .timeout info) →
    isWriteOp i = true ∧ info = { polls := some s.cfg.pollBudget }

/-! ### Target interface -/

/-- 45_target_interface R280: `CREATE`, its encoding, its checks in order, and the DeviceHandle. -/
def Obligations.CreateChecksTheBinding : Prop :=
  ∀ s : State, decode (.hostOp 0x01 []) = .instr .create ∧
    (s.cfg.tapBound = false → exec .create s = .next (ended s [] (plainErr .invalidTap))) ∧
    (s.cfg.tapBound = true → s.cfg.tapIrLen ≠ 4 →
      exec .create s = .next (ended s [] (plainErr .widthMismatch))) ∧
    (s.cfg.tapBound = true → s.cfg.tapIrLen = 4 →
      exec .create s = .next (ended { s with device := true } [] (.ok .empty)))

/-- 45_target_interface R284 with 10_state R31: `READ_STATUS` returns the 16-bit STATUS word of the
current `S`, by its fields, without a scan and without a change of `S`. -/
def Obligations.ReadStatusReturnsTheFields : Prop :=
  ∀ s : State, decode (.hostOp 0x18 []) = .instr .readStatus ∧
    ∃ v : Half, exec .readStatus s = .next (ended s [] (.ok (.status v))) ∧
      v.extractLsb' 0 8 = (match s.irCache with | .known c => c | .unknown => 0) ∧
      v.getLsbD 8 = (match s.irCache with | .known _ => true | .unknown => false) ∧
      (v.extractLsb' 9 3).toNat = (match s.pm with
        | .idle => 0 | .resetAsserted => 1 | .programEnabled => 2 | .commandsActive => 3
        | .programDisabled => 4 | .resetReleased => 5 | .error => 6) ∧
      v.getLsbD 12 = s.device ∧ v.extractLsb' 13 3 = 0

/-- `READ_FLASH_RANGE` without a DeviceHandle, outside `Idle`, past the end of the flash, or of no bytes:
its checks in order, none with a scan (45_target_interface section 2). -/
def Obligations.FlashRangeChecksInOrder : Prop :=
  ∀ (b count : Nat) (s : State),
    (s.device = false →
      exec (.readFlashRange b count) s = .next (ended s [] (plainErr .invalidTap))) ∧
    (s.device = true → s.pm ≠ .idle →
      exec (.readFlashRange b count) s = .next (ended s [] (plainErr .alreadyActive))) ∧
    (s.device = true → s.pm = .idle → 2 * s.cfg.flashWords < b + count →
      exec (.readFlashRange b count) s = .next (ended s [] (plainErr .badArgument))) ∧
    (s.device = true → s.pm = .idle → b ≤ 2 * s.cfg.flashWords → count = 0 →
      exec (.readFlashRange b count) s = .next (ended s [] (.ok (.bytes []))))

/-- No session outlives a range read: after a success the controller is in `Idle`, and after a failure
past its checks in `Error`, whatever the environment answers (45_target_interface sections 2 and 3). -/
def Obligations.FlashRangeLeavesNoSession : Prop :=
  ∀ (b count : Nat) (s t : State), 1 ≤ s.cfg.pageWords → s.device = true → s.pm = .idle →
    b + count ≤ 2 * s.cfg.flashWords → exec (.readFlashRange b count) s = .next t →
    (∀ data, t.result = some (.ok data) →
      t.pm = .idle ∧ ∃ bytes, data = .bytes bytes ∧ bytes.length = count) ∧
    (∀ kind info, t.result = some (.err kind info) → t.pm = .error)

/-- Over the reference device `READ_FLASH_RANGE` completes, in `Idle` with the device released, and byte
`j` of its result is flash byte `b + j`, the low byte of each word first (45_target_interface section 2,
20_memory section 2). The device's memories do not change. -/
def Obligations.FlashRangeReadsTheFlash : Prop :=
  ∀ (b count : Nat) (s : State), ReferenceIdle s → s.device = true →
    b + count ≤ 2 * s.cfg.flashWords →
    ∃ t, exec (.readFlashRange b count) s = .next t ∧ t.pm = .idle ∧ t.active = false ∧
      t.result = some (.ok (.bytes ((List.range count).map fun j =>
        Memory.read (b + j) s.target.flash))) ∧
      t.target.flash = s.target.flash ∧ t.target.eeprom = s.target.eeprom ∧
      (1 ≤ count → t.target.prog = false ∧ t.target.reset = false)

/-! ### The target side: what writes store and what they leave -/

/-- The round trip: on the reference device, a page write whose target clears within the budget succeeds,
and reading the page back returns the bytes written (44_memory_ops section 7). -/
def Obligations.FlashPageRoundTrip : Prop :=
  ∀ (s : State) (p k : Nat) (data : List Nat), ReferenceSession s →
    validArgs s.cfg (.flashPageWrite p data) → s.target.busyK = .finite k → k < s.cfg.pollBudget →
    ∃ t u, exec (.flashPageWrite p data) s = .next t ∧ t.result = some (.ok .empty) ∧
      exec (.flashPageRead p) t = .next u ∧
      u.result = some (.ok (.bytes (data.map (BitVec.ofNat 8))))

/-- What a page write leaves on the reference device, however it ends: every flash byte outside the page,
the EEPROM, the fuses, the lock bits and the read-only bytes (44_memory_ops section 3, 47_reference_device
section 3). -/
def Obligations.FlashPageWriteTouchesItsPageOnly : Prop :=
  ∀ (s t : State) (p : Nat) (data : List Nat), configOk s.cfg = true → s.cfg.cmd = referenceCmd →
    s.target.pagebuf.length = s.cfg.pageWords → exec (.flashPageWrite p data) s = .next t →
    (∀ a, a < 2 * (p * s.cfg.pageWords) ∨ 2 * ((p + 1) * s.cfg.pageWords) ≤ a →
      Memory.read a t.target.flash = Memory.read a s.target.flash) ∧
    t.target.eeprom = s.target.eeprom ∧ t.target.fuseHi = s.target.fuseHi ∧
    t.target.fuseLo = s.target.fuseLo ∧ t.target.lock = s.target.lock ∧
    t.target.sig = s.target.sig ∧ t.target.cal = s.target.cal

/-- The byte writes on the reference device: each completes when the target clears within the budget and
stores its byte, its six lock bits, at its own place and nowhere else (44_memory_ops sections 4 and 5,
47_reference_device section 3). -/
def Obligations.ByteWritesStoreTheirByteOnly : Prop :=
  ∀ (s : State) (a d k : Nat), ReferenceSession s → s.target.busyK = .finite k →
    k < s.cfg.pollBudget → d < 256 →
    (a < s.cfg.eepromBytes → ∃ t, exec (.eepromWrite a d) s = .next t ∧
      t.result = some (.ok .empty) ∧ Memory.read a t.target.eeprom = BitVec.ofNat 8 d ∧
      (∀ a', a' ≠ a → Memory.read a' t.target.eeprom = Memory.read a' s.target.eeprom) ∧
      t.target.flash = s.target.flash ∧ t.target.fuseHi = s.target.fuseHi ∧
      t.target.fuseLo = s.target.fuseLo ∧ t.target.lock = s.target.lock) ∧
    (∃ t, exec (.fuseHighWrite d) s = .next t ∧ t.result = some (.ok .empty) ∧
      t.target.fuseHi = BitVec.ofNat 8 d ∧ t.target.fuseLo = s.target.fuseLo ∧
      t.target.lock = s.target.lock ∧ t.target.flash = s.target.flash ∧
      t.target.eeprom = s.target.eeprom) ∧
    (∃ t, exec (.fuseLowWrite d) s = .next t ∧ t.result = some (.ok .empty) ∧
      t.target.fuseLo = BitVec.ofNat 8 d ∧ t.target.fuseHi = s.target.fuseHi ∧
      t.target.lock = s.target.lock ∧ t.target.flash = s.target.flash ∧
      t.target.eeprom = s.target.eeprom) ∧
    (∃ t, exec (.lockWrite d) s = .next t ∧ t.result = some (.ok .empty) ∧
      t.target.lock = BitVec.ofNat 6 d ∧ t.target.fuseHi = s.target.fuseHi ∧
      t.target.fuseLo = s.target.fuseLo ∧ t.target.flash = s.target.flash ∧
      t.target.eeprom = s.target.eeprom)

/-- `CHIP_ERASE` on the reference device: every flash and EEPROM byte reads 0xFF and the lock bits are
0x3F; the fuses stay (44_memory_ops section 2, 47_reference_device section 3). -/
def Obligations.ChipEraseErasesTheTarget : Prop :=
  ∀ (s : State) (k : Nat), ReferenceSession s → s.target.busyK = .finite k → k < s.cfg.pollBudget →
    ∃ t, exec .chipErase s = .next t ∧ t.result = some (.ok .empty) ∧
      (∀ a, Memory.read a t.target.flash = 0xFF ∧ Memory.read a t.target.eeprom = 0xFF) ∧
      t.target.lock = 0x3F ∧ t.target.fuseHi = s.target.fuseHi ∧ t.target.fuseLo = s.target.fuseLo

/-- The reads on the reference device that is not busy: each completes with the bytes its memory holds
(44_memory_ops sections 4 to 6, 47_reference_device section 3). A signature or calibration byte past the
bytes that the device holds reads 0xFF, which is the model's choice (log 25). -/
def Obligations.ByteReadsReturnTheTargetsBytes : Prop :=
  ∀ (s : State) (a i : Nat), ReferenceSession s → s.target.busy = false →
    (a < s.cfg.eepromBytes → ∃ t, exec (.eepromRead a) s = .next t ∧
      t.result = some (.ok (.bytes [Memory.read a s.target.eeprom]))) ∧
    (∃ t, exec .fuseHighRead s = .next t ∧ t.result = some (.ok (.bytes [s.target.fuseHi]))) ∧
    (∃ t, exec .fuseLowRead s = .next t ∧ t.result = some (.ok (.bytes [s.target.fuseLo]))) ∧
    (∃ t, exec .lockRead s = .next t ∧
      t.result = some (.ok (.bytes [s.target.lock.setWidth 8]))) ∧
    (∃ t, exec .fusesLockRead s = .next t ∧ t.result = some (.ok (.bytes
      [s.target.fuseHi, s.target.fuseLo, s.target.lock.setWidth 8]))) ∧
    (i < s.cfg.sigBytes → ∃ t, exec (.signatureRead i) s = .next t ∧
      t.result = some (.ok (.bytes [s.target.sig.getD i 0xFF]))) ∧
    (i < s.cfg.calBytes → ∃ t, exec (.calibrationRead i) s = .next t ∧
      t.result = some (.ok (.bytes [s.target.cal.getD i 0xFF])))

/-- The read operations leave every byte of the reference device's memories as it was, whichever
environment is in force and however they end; so does `READ_FLASH_RANGE`, with a cache that is unknown or
holds what the device's instruction register holds (47_reference_device section 3, 44_memory_ops sections
3 to 6, 45_target_interface section 2). That a target has these memories is the model's choice (log 7); of
another target the spec assumes it only (20_memory section 4). -/
def Obligations.ReadsLeaveTheTargetsMemories : Prop :=
  ∀ (i : Instr) (s t : State), s.cfg.cmd = referenceCmd →
    (isMemoryOp i = true ∧ isWriteOp i = false) ∨
      ((∃ b count, i = .readFlashRange b count) ∧ configOk s.cfg = true ∧
        ∀ v, s.irCache = .known v → v.toNat = s.target.ir.toNat) →
    exec i s = .next t →
    t.target.flash = s.target.flash ∧ t.target.eeprom = s.target.eeprom ∧
      t.target.fuseHi = s.target.fuseHi ∧ t.target.fuseLo = s.target.fuseLo ∧
      t.target.lock = s.target.lock ∧ t.target.sig = s.target.sig ∧ t.target.cal = s.target.cal

/-! ### Invariants -/

/-- The reset state meets the invariants of the block and of the device. -/
def Obligations.ResetMeetsTheInvariants : Prop :=
  BlockInv State.reset ∧ DeviceInv State.reset

/-- Every step from any state that meets the block's invariant leads to one that meets it (10_state
sections 1 and 3, 40_scan_primitives section 4, 45_target_interface section 1). -/
def Obligations.StepKeepsTheBlockInvariant : Prop :=
  ∀ s t : State, BlockInv s → step s = .next t → BlockInv t

/-- Every step from any state that meets the device's invariant leads to one that meets it
(47_reference_device section 1, 20_memory section 5). -/
def Obligations.StepKeepsTheDeviceInvariant : Prop :=
  ∀ s t : State, DeviceInv s → step s = .next t → DeviceInv t

/-- No step writes the launch configuration, and none the device's read-only bytes or its busy parameter
(43_command_words section 9, 20_memory section 1, 47_reference_device section 1). -/
def Obligations.StepKeepsWhatIsFixed : Prop :=
  ∀ s t : State, step s = .next t →
    t.cfg = s.cfg ∧ t.target.sig = s.target.sig ∧ t.target.cal = s.target.cal ∧
      t.target.busyK = s.target.busyK

/-- The free environment gives the scans the supplied answers in order, whatever they are, and no
instruction touches the reference device's data under it: the block reaches the target through scans only
(00_scope section 3, 10_state section 6; log 6). -/
def Obligations.FreeEnvironmentAnswersAsSupplied : Prop :=
  (∀ (s : State) (reqs : List Scan) (answers rest : List Answer) (n : Nat),
    answers.length = reqs.length → s.link = .free (answers ++ rest) n →
    answerScans reqs s = (answers, { s with link := .free rest (n + reqs.length) })) ∧
  ∀ (i : Instr) (s t : State) (supplied : List Answer) (n : Nat), s.link = .free supplied n →
    exec i s = .next t → t.target = s.target ∧ ∃ supplied' n', t.link = .free supplied' n'
end

