-- ==== Sys2Proof/Laws/Memory.lean ====
section
/-! SUPPORT. The laws of the sparse memories: every operation keeps the canonical form, a read after a
write gives the byte written and every other byte as before, and equal reads make equal memories. -/

namespace Sys2Proof.Machine

/-! ### Canonical form -/

theorem Memory.wf_nil : Memory.wf [] := by simp [Memory.wf]

theorem Memory.wf_tail {c : Host.Cell} {m : Memory} (h : Memory.wf (c :: m)) : Memory.wf m :=
  ⟨(List.pairwise_cons.mp h.1).2, fun d hd => h.2 d (List.mem_cons_of_mem _ hd)⟩

theorem Memory.wf_head_lt {c : Host.Cell} {m : Memory} (h : Memory.wf (c :: m)) :
    ∀ d ∈ m, c.1 < d.1 := (List.pairwise_cons.mp h.1).1

/-- A cell below all others may be put in front. -/
theorem Memory.cons_wf {a : Nat} {b : Byte} {m : Memory} (h : Memory.wf m)
    (hlt : ∀ d ∈ m, a < d.1) : Memory.wf (Memory.cons a b m) := by
  unfold Memory.cons
  split
  · exact h
  · next hb =>
    refine ⟨List.pairwise_cons.mpr ⟨hlt, h.1⟩, ?_⟩
    intro d hd
    rcases List.mem_cons.mp hd with rfl | hd
    · exact hb
    · exact h.2 d hd

theorem Memory.mem_cons {a : Nat} {b : Byte} {m : Memory} {d : Host.Cell}
    (h : d ∈ Memory.cons a b m) : d = (a, b) ∨ d ∈ m := by
  unfold Memory.cons at h
  split at h
  · exact .inr h
  · exact List.mem_cons.mp h

/-- A cell after a write is the cell written or one from before. -/
theorem Memory.mem_write {a : Nat} {b : Byte} {d : Host.Cell} :
    ∀ {m : Memory}, d ∈ Memory.write a b m → d = (a, b) ∨ d ∈ m
  | [], h => Memory.mem_cons h
  | (k, v) :: rest, h => by
    unfold Memory.write at h
    split at h
    · exact Memory.mem_cons h
    · split at h
      · exact (Memory.mem_cons h).imp_right (List.mem_cons_of_mem _)
      · rcases List.mem_cons.mp h with rfl | h
        · exact .inr List.mem_cons_self
        · exact (Memory.mem_write h).imp_right (List.mem_cons_of_mem _)

theorem Memory.write_wf (a : Nat) (b : Byte) :
    ∀ {m : Memory}, Memory.wf m → Memory.wf (Memory.write a b m)
  | [], h => Memory.cons_wf h (by simp)
  | (k, v) :: rest, h => by
    have hlt := Memory.wf_head_lt h
    unfold Memory.write
    split
    · next hak =>
      refine Memory.cons_wf h fun d hd => ?_
      rcases List.mem_cons.mp hd with rfl | hd
      · exact hak
      · exact Nat.lt_trans hak (hlt d hd)
    · split
      · next hak => subst hak; exact Memory.cons_wf (Memory.wf_tail h) hlt
      · next h1 h2 =>
        have ih := Memory.write_wf a b (Memory.wf_tail h)
        refine ⟨List.pairwise_cons.mpr ⟨fun d hd => ?_, ih.1⟩, fun d hd => ?_⟩
        · rcases Memory.mem_write hd with rfl | hd
          · show k < a; omega
          · exact hlt d hd
        · rcases List.mem_cons.mp hd with rfl | hd
          · exact h.2 _ List.mem_cons_self
          · exact ih.2 d hd

theorem Memory.writeWord_wf (wa : Nat) (v : Half) {m : Memory} (h : Memory.wf m) :
    Memory.wf (Memory.writeWord wa v m) := Memory.write_wf _ _ (Memory.write_wf _ _ h)

theorem Memory.writeWords_wf : ∀ (vs : List Half) (wa : Nat) {m : Memory}, Memory.wf m →
    Memory.wf (Memory.writeWords wa vs m)
  | [], _, _, h => h
  | v :: vs, wa, _, h => Memory.writeWords_wf vs (wa + 1) (Memory.writeWord_wf wa v h)

/-- Every cell of a block write is one of the block's bytes or one from before. -/
theorem Memory.mem_writeWords {d : Host.Cell} : ∀ {vs : List Half} {wa : Nat} {m : Memory},
    d ∈ Memory.writeWords wa vs m →
    (2 * wa ≤ d.1 ∧ d.1 < 2 * (wa + vs.length)) ∨ d ∈ m
  | [], _, _, h => .inr h
  | v :: vs, wa, m, h => by
    rcases Memory.mem_writeWords (vs := vs) h with h | h
    · left; simp only [List.length_cons]; omega
    · rcases Memory.mem_write h with rfl | h
      · left; simp only [List.length_cons]; omega
      · rcases Memory.mem_write h with rfl | h
        · left; simp only [List.length_cons]; omega
        · exact .inr h

/-! ### Reads -/

/-- A byte below every listed address reads as erased. -/
theorem Memory.read_of_lt {a : Nat} : ∀ {m : Memory}, (∀ d ∈ m, a < d.1) → Memory.read a m = erased
  | [], _ => rfl
  | (k, v) :: rest, h => by
    have hk : k ≠ a := fun e => by have := h (k, v) List.mem_cons_self; simp [e] at this
    rw [Memory.read, if_neg hk]
    exact Memory.read_of_lt fun d hd => h d (List.mem_cons_of_mem _ hd)

theorem Memory.read_cons {a a' : Nat} {b : Byte} {m : Memory} (hlt : ∀ d ∈ m, a < d.1) :
    Memory.read a' (Memory.cons a b m) = if a' = a then b else Memory.read a' m := by
  unfold Memory.cons
  split
  · next hb =>
    split
    · next e => subst e; rw [Memory.read_of_lt hlt, hb]
    · rfl
  · rw [Memory.read]; simp only [eq_comm (a := a) (b := a')]

/-- A byte read after a write: the byte written at its address, every other as before. -/
theorem Memory.read_write (a a' : Nat) (b : Byte) : ∀ {m : Memory}, Memory.wf m →
    Memory.read a' (Memory.write a b m) = if a' = a then b else Memory.read a' m
  | [], _ => by rw [Memory.write]; exact Memory.read_cons (by simp)
  | (k, v) :: rest, h => by
    have hlt := Memory.wf_head_lt h
    unfold Memory.write
    split
    · next hak =>
      refine Memory.read_cons fun d hd => ?_
      rcases List.mem_cons.mp hd with rfl | hd
      · exact hak
      · exact Nat.lt_trans hak (hlt d hd)
    · split
      · next hak =>
        subst hak
        rw [Memory.read_cons hlt, Memory.read]
        split <;> simp_all [eq_comm]
      · next h1 h2 =>
        have ih := Memory.read_write a a' b (Memory.wf_tail h)
        rw [Memory.read, Memory.read, ih]
        split
        · next e => subst e; rw [if_neg (Ne.symm h2)]
        · rfl

/-- The same outside the address written, without the canonical form. -/
theorem Memory.read_write_other {a a' : Nat} (b : Byte) (hne : a' ≠ a) :
    ∀ m : Memory, Memory.read a' (Memory.write a b m) = Memory.read a' m
  | [] => by
    rw [Memory.write, Memory.cons]
    split
    · rfl
    · exact if_neg (Ne.symm hne)
  | (k, v) :: rest => by
    unfold Memory.write
    split
    · rw [Memory.cons]
      split
      · rfl
      · rw [Memory.read, if_neg (Ne.symm hne)]
    · split
      · next hak =>
        subst hak
        rw [Memory.cons, Memory.read, if_neg (Ne.symm hne)]
        split
        · rfl
        · rw [Memory.read, if_neg (Ne.symm hne)]
      · rw [Memory.read, Memory.read, Memory.read_write_other b hne rest]

/-- A block write leaves every byte outside its block. -/
theorem Memory.read_writeWords_other {a : Nat} : ∀ (vs : List Half) (wa : Nat) (m : Memory),
    a < 2 * wa ∨ 2 * (wa + vs.length) ≤ a →
    Memory.read a (Memory.writeWords wa vs m) = Memory.read a m
  | [], _, _, _ => rfl
  | v :: vs, wa, m, h => by
    simp only [List.length_cons] at h
    rw [Memory.writeWords, Memory.read_writeWords_other vs (wa + 1) _ (by omega), Memory.writeWord,
      Memory.read_write_other _ (by omega), Memory.read_write_other _ (by omega)]

theorem Memory.readWord_writeWord {wa : Nat} {v : Half} {m : Memory} (h : Memory.wf m) :
    Memory.readWord wa (Memory.writeWord wa v m) = v := by
  have h1 := Memory.write_wf (2 * wa) (v.extractLsb' 0 8) h
  rw [Memory.readWord, Memory.writeWord, Memory.read_write _ (2 * wa + 1) _ h1, if_pos rfl,
    Memory.read_write _ (2 * wa) _ h1, if_neg (by omega), Memory.read_write _ _ _ h, if_pos rfl]
  ext i hi
  simp only [BitVec.getElem_append, BitVec.getElem_extractLsb']
  split
  · simp [BitVec.getLsbD_eq_getElem hi]
  · simp only [show 8 + (i - 8) = i by omega, BitVec.getLsbD_eq_getElem hi]

/-- Word `k` of a block written reads back. -/
theorem Memory.readWord_writeWords : ∀ (vs : List Half) (wa k : Nat) (m : Memory), Memory.wf m →
    (hk : k < vs.length) → Memory.readWord (wa + k) (Memory.writeWords wa vs m) = vs[k]
  | v :: vs, wa, 0, m, h, _ => by
    rw [Memory.readWord, Memory.writeWords, Memory.read_writeWords_other vs _ _ (by omega),
      Memory.read_writeWords_other vs _ _ (by omega)]
    exact Memory.readWord_writeWord h
  | v :: vs, wa, k + 1, m, h, hk => by
    have := Memory.readWord_writeWords vs (wa + 1) k _ (Memory.writeWord_wf wa v h)
      (by simpa using hk)
    rw [Memory.writeWords, show wa + (k + 1) = wa + 1 + k by omega, this]
    rfl

/-! ### The device's memories at reset -/

theorem Device.initial_flash_wf (n : Nat) : (Device.initial n).flash.wf := Memory.wf_nil

theorem Device.initial_eeprom_wf (n : Nat) : (Device.initial n).eeprom.wf := Memory.wf_nil

end Sys2Proof.Machine
end

