-- ==== Sys2Proof/Laws/Device.lean ====
section
/-! SUPPORT. The laws of the reference device: what a command word and a scan leave as it was, and that
every scan keeps the device's memories and buffers in their form. -/

namespace Sys2Proof.Machine

/-! ### What a command word leaves -/

/-- The counters at a word touch `trig` and `rem` only. -/
theorem Device.tick_frame (d : Device) :
    d.tick = { d with trig := d.tick.trig, rem := d.tick.rem } := by
  unfold Device.tick
  split
  · split <;> rfl
  · split <;> rfl

/-- A latch word writes the page buffer or the EEPROM latch only. -/
theorem Device.latch_frame (c : Config) (d : Device) :
    d.latch c = { d with pagebuf := (d.latch c).pagebuf, eel := (d.latch c).eel } := by
  unfold Device.latch
  split <;> rfl

/-- A pulse word leaves the scan registers, the address and data registers and the read-only bytes. -/
theorem Device.pulse_frame (c : Config) (w : CmdWord) (d : Device) :
    d.pulse c w = { d with
      pagebuf := (d.pulse c w).pagebuf, trig := (d.pulse c w).trig, flash := (d.pulse c w).flash,
      eeprom := (d.pulse c w).eeprom, fuseHi := (d.pulse c w).fuseHi,
      fuseLo := (d.pulse c w).fuseLo, lock := (d.pulse c w).lock } := by
  unfold Device.pulse
  split
  · split <;> rfl
  · split <;> rfl
  · split <;> rfl
  · split
    · rfl
    · split <;> rfl
  · split <;> rfl
  · rfl

/-- No command word touches the instruction register, the reset and enable state, the read-only bytes or
the busy parameter. -/
theorem Device.effect_fixed (c : Config) (w : CmdWord) (d : Device) :
    (d.effect c w).ir = d.ir ∧ (d.effect c w).reset = d.reset ∧ (d.effect c w).prog = d.prog ∧
      (d.effect c w).sig = d.sig ∧ (d.effect c w).cal = d.cal ∧ (d.effect c w).busyK = d.busyK := by
  unfold Device.effect
  split
  · exact ⟨rfl, rfl, rfl, rfl, rfl, rfl⟩
  split
  · exact ⟨rfl, rfl, rfl, rfl, rfl, rfl⟩
  split
  · exact ⟨rfl, rfl, rfl, rfl, rfl, rfl⟩
  split
  · exact ⟨rfl, rfl, rfl, rfl, rfl, rfl⟩
  split
  · exact ⟨rfl, rfl, rfl, rfl, rfl, rfl⟩
  split
  · exact ⟨rfl, rfl, rfl, rfl, rfl, rfl⟩
  split
  · rw [Device.latch_frame]; exact ⟨rfl, rfl, rfl, rfl, rfl, rfl⟩
  · rw [Device.pulse_frame]; exact ⟨rfl, rfl, rfl, rfl, rfl, rfl⟩

theorem Device.shift_fixed (c : Config) (w : CmdWord) (d : Device) :
    (d.shift c w).ir = d.ir ∧ (d.shift c w).reset = d.reset ∧ (d.shift c w).prog = d.prog ∧
      (d.shift c w).sig = d.sig ∧ (d.shift c w).cal = d.cal ∧ (d.shift c w).busyK = d.busyK := by
  obtain ⟨h1, h2, h3, h4, h5, h6⟩ := Device.effect_fixed c w d.tick
  have ht : d.tick.ir = d.ir ∧ d.tick.reset = d.reset ∧ d.tick.prog = d.prog ∧
      d.tick.sig = d.sig ∧ d.tick.cal = d.cal ∧ d.tick.busyK = d.busyK := by
    rw [Device.tick_frame]
    exact ⟨rfl, rfl, rfl, rfl, rfl, rfl⟩
  obtain ⟨t1, t2, t3, t4, t5, t6⟩ := ht
  exact ⟨h1.trans t1, h2.trans t2, h3.trans t3, h4.trans t4, h5.trans t5, h6.trans t6⟩

/-- No scan touches the read-only bytes or the busy parameter. -/
theorem deviceScan_fixed (c : Config) (req : Scan) (d : Device) :
    (deviceScan c req d).2.sig = d.sig ∧ (deviceScan c req d).2.cal = d.cal ∧
      (deviceScan c req d).2.busyK = d.busyK := by
  cases req with
  | ir w v => exact ⟨rfl, rfl, rfl⟩
  | dr w v =>
    have h := (Device.shift_fixed c (BitVec.ofNat 15 v) d).2.2.2
    simp only [deviceScan, Device.scanDr, Device.enable]
    split
    · exact ⟨rfl, rfl, rfl⟩
    split
    · split
      · exact ⟨rfl, rfl, rfl⟩
      split <;> exact ⟨rfl, rfl, rfl⟩
    split
    · split
      · exact h
      · exact ⟨rfl, rfl, rfl⟩
    · exact ⟨rfl, rfl, rfl⟩

/-! ### The form of the device -/

/-- Memories in canonical form and inside their spaces, a whole page buffer, a strobe counter of at most 2
(47_reference_device R300, 20_memory R59). -/
def Device.Sized (c : Config) (d : Device) : Prop :=
  d.flash.wf ∧ d.eeprom.wf ∧ (0 < c.flashWords → ∀ x ∈ d.flash, x.1 < 2 * c.flashWords) ∧
  (0 < c.eepromBytes → ∀ x ∈ d.eeprom, x.1 < c.eepromBytes) ∧ d.pagebuf.length = c.pageWords ∧ d.trig ≤ 2

/-- An address of a space that has cells, by `mod` (47_reference_device R308). -/
theorem addressIn_eq {b : Nat} (hb : 0 < b) (a : Nat) : addressIn b a = a % b :=
  if_neg (by omega)

theorem addressIn_lt {b : Nat} (hb : 0 < b) (a : Nat) : addressIn b a < b := by
  rw [addressIn_eq hb]; exact Nat.mod_lt _ hb

theorem Device.pulse_sized {c : Config} (hf : c.pageWords ∣ c.flashWords) (w : CmdWord) {d : Device}
    (h : Device.Sized c d) : Device.Sized c (d.pulse c w) := by
  obtain ⟨h1, h2, h3, h4, h5, h6⟩ := h
  unfold Device.pulse
  split
  · split
    · exact ⟨Memory.wf_nil, Memory.wf_nil, by simp [Device.strobe], by simp [Device.strobe], h5, le_refl _⟩
    · exact ⟨h1, h2, h3, h4, h5, h6⟩
  · split
    · refine ⟨Memory.writeWords_wf _ _ h1, h2, ?_, h4, by simp [Device.strobe, Device.commitPage], le_refl _⟩
      intro hp x hx
      simp only [Device.strobe, Device.commitPage] at hx
      rcases Memory.mem_writeWords hx with ⟨_, hlt⟩ | hx
      · have hwa : d.wordAddress c < c.flashWords := addressIn_lt hp _
        obtain ⟨q, hq⟩ := hf
        generalize d.wordAddress c = wa at *
        rw [h5] at hlt
        have hb : wa - wa % c.pageWords + c.pageWords ≤ c.flashWords := by
          have e : wa - wa % c.pageWords = c.pageWords * (wa / c.pageWords) := by
            have := Nat.div_add_mod wa c.pageWords; omega
          rw [e, hq, ← Nat.mul_succ]
          apply Nat.mul_le_mul_left
          have : wa / c.pageWords < q := by
            apply Nat.div_lt_of_lt_mul; rw [← hq]; exact hwa
          omega
        omega
      · exact h3 hp x hx
    · exact ⟨h1, h2, h3, h4, h5, h6⟩
  · split
    · refine ⟨h1, Memory.write_wf _ _ h2, h3, ?_, h5, le_refl _⟩
      intro hp x hx
      rcases Memory.mem_write hx with rfl | hx
      · exact addressIn_lt hp _
      · exact h4 hp x hx
    · exact ⟨h1, h2, h3, h4, h5, h6⟩
  · split
    · exact ⟨h1, h2, h3, h4, h5, le_refl _⟩
    · split
      · exact ⟨h1, h2, h3, h4, h5, le_refl _⟩
      · exact ⟨h1, h2, h3, h4, h5, h6⟩
  · split
    · exact ⟨h1, h2, h3, h4, h5, le_refl _⟩
    · exact ⟨h1, h2, h3, h4, h5, h6⟩
  · exact ⟨h1, h2, h3, h4, h5, h6⟩

theorem Device.latch_sized {c : Config} {d : Device}
    (h : Device.Sized c d) : Device.Sized c (d.latch c) := by
  obtain ⟨h1, h2, h3, h4, h5, h6⟩ := h
  unfold Device.latch
  split <;> exact ⟨h1, h2, h3, h4, by simp [h5], h6⟩

theorem Device.effect_sized {c : Config} (hf : c.pageWords ∣ c.flashWords) (w : CmdWord) {d : Device}
    (h : Device.Sized c d) : Device.Sized c (d.effect c w) := by
  have h' := h
  obtain ⟨h1, h2, h3, h4, h5, h6⟩ := h
  unfold Device.effect
  split
  · exact ⟨h1, h2, h3, h4, h5, by simp⟩
  split
  · exact ⟨h1, h2, h3, h4, h5, h6⟩
  split
  · exact ⟨h1, h2, h3, h4, h5, h6⟩
  split
  · exact ⟨h1, h2, h3, h4, h5, h6⟩
  split
  · exact ⟨h1, h2, h3, h4, h5, h6⟩
  split
  · exact ⟨h1, h2, h3, h4, h5, h6⟩
  split
  · exact Device.latch_sized h'
  exact Device.pulse_sized hf w h'

theorem Device.tick_sized {c : Config} {d : Device}
    (h : Device.Sized c d) : Device.Sized c d.tick := by
  obtain ⟨h1, h2, h3, h4, h5, h6⟩ := h
  unfold Device.tick
  split
  · split
    · exact ⟨h1, h2, h3, h4, h5, by simp⟩
    · exact ⟨h1, h2, h3, h4, h5, by simp; omega⟩
  · split <;> exact ⟨h1, h2, h3, h4, h5, h6⟩

theorem Device.shift_sized {c : Config} (hf : c.pageWords ∣ c.flashWords) (w : CmdWord) {d : Device}
    (h : Device.Sized c d) : Device.Sized c (d.shift c w) :=
  Device.effect_sized hf w (Device.tick_sized h)

theorem deviceScan_sized {c : Config} (hf : c.pageWords ∣ c.flashWords) (req : Scan) {d : Device}
    (h : Device.Sized c d) : Device.Sized c (deviceScan c req d).2 := by
  have h' := h
  obtain ⟨h1, h2, h3, h4, h5, h6⟩ := h
  cases req with
  | ir w v => exact h'
  | dr w v =>
    simp only [deviceScan, Device.scanDr]
    split
    · exact h'
    split
    · simp only [Device.enable]; split
      · exact h'
      · split
        · exact ⟨h1, h2, h3, h4, h5, by simp⟩
        · exact h'
    split
    · split
      · exact Device.shift_sized hf _ h'
      · exact h'
    · exact h'

end Sys2Proof.Machine
end

