-- ==== Sys2Proof/Laws/State.lean ====
section
/-! SUPPORT. One lemma for each field of the state and each named update of it. -/

namespace Sys2Proof.Machine

/-! ### setPm -/

@[simp] theorem setPm_irCache (pm : Pm) (s : State) : (setPm pm s).irCache = s.irCache := rfl
@[simp] theorem setPm_pm (pm : Pm) (s : State) : (setPm pm s).pm = pm := rfl
@[simp] theorem setPm_device (pm : Pm) (s : State) : (setPm pm s).device = s.device := rfl
@[simp] theorem setPm_running (pm : Pm) (s : State) : (setPm pm s).running = s.running := rfl
@[simp] theorem setPm_active (pm : Pm) (s : State) : (setPm pm s).active = s.active := rfl
@[simp] theorem setPm_pos (pm : Pm) (s : State) : (setPm pm s).pos = s.pos := rfl
@[simp] theorem setPm_caps (pm : Pm) (s : State) : (setPm pm s).caps = s.caps := rfl
@[simp] theorem setPm_polls (pm : Pm) (s : State) : (setPm pm s).polls = s.polls := rfl
@[simp] theorem setPm_port (pm : Pm) (s : State) : (setPm pm s).port = s.port := rfl
@[simp] theorem setPm_trace (pm : Pm) (s : State) : (setPm pm s).trace = s.trace := rfl
@[simp] theorem setPm_result (pm : Pm) (s : State) : (setPm pm s).result = s.result := rfl
@[simp] theorem setPm_cfg (pm : Pm) (s : State) : (setPm pm s).cfg = s.cfg := rfl
@[simp] theorem setPm_link (pm : Pm) (s : State) : (setPm pm s).link = s.link := rfl
@[simp] theorem setPm_target (pm : Pm) (s : State) : (setPm pm s).target = s.target := rfl

/-! ### toError -/

@[simp] theorem toError_irCache (s : State) : (toError s).irCache = s.irCache := rfl
@[simp] theorem toError_pm (s : State) : (toError s).pm = .error := rfl
@[simp] theorem toError_device (s : State) : (toError s).device = s.device := rfl
@[simp] theorem toError_running (s : State) : (toError s).running = s.running := rfl
@[simp] theorem toError_active (s : State) : (toError s).active = s.active := rfl
@[simp] theorem toError_pos (s : State) : (toError s).pos = s.pos := rfl
@[simp] theorem toError_caps (s : State) : (toError s).caps = s.caps := rfl
@[simp] theorem toError_polls (s : State) : (toError s).polls = s.polls := rfl
@[simp] theorem toError_port (s : State) : (toError s).port = s.port := rfl
@[simp] theorem toError_trace (s : State) : (toError s).trace = s.trace := rfl
@[simp] theorem toError_result (s : State) : (toError s).result = s.result := rfl
@[simp] theorem toError_cfg (s : State) : (toError s).cfg = s.cfg := rfl
@[simp] theorem toError_link (s : State) : (toError s).link = s.link := rfl
@[simp] theorem toError_target (s : State) : (toError s).target = s.target := rfl

/-! ### startAfresh -/

@[simp] theorem startAfresh_irCache (o : Option Instr) (s : State) :
    (startAfresh o s).irCache = s.irCache := rfl
@[simp] theorem startAfresh_pm (o : Option Instr) (s : State) : (startAfresh o s).pm = s.pm := rfl
@[simp] theorem startAfresh_device (o : Option Instr) (s : State) :
    (startAfresh o s).device = s.device := rfl
@[simp] theorem startAfresh_running (o : Option Instr) (s : State) :
    (startAfresh o s).running = o := rfl
@[simp] theorem startAfresh_active (o : Option Instr) (s : State) :
    (startAfresh o s).active = o.isSome := rfl
@[simp] theorem startAfresh_pos (o : Option Instr) (s : State) : (startAfresh o s).pos = 0 := rfl
@[simp] theorem startAfresh_caps (o : Option Instr) (s : State) : (startAfresh o s).caps = [] := rfl
@[simp] theorem startAfresh_polls (o : Option Instr) (s : State) :
    (startAfresh o s).polls = 0 := rfl
@[simp] theorem startAfresh_port (o : Option Instr) (s : State) :
    (startAfresh o s).port = s.port := rfl
@[simp] theorem startAfresh_trace (o : Option Instr) (s : State) :
    (startAfresh o s).trace = [] := rfl
@[simp] theorem startAfresh_result (o : Option Instr) (s : State) :
    (startAfresh o s).result = none := rfl
@[simp] theorem startAfresh_cfg (o : Option Instr) (s : State) :
    (startAfresh o s).cfg = s.cfg := rfl
@[simp] theorem startAfresh_link (o : Option Instr) (s : State) :
    (startAfresh o s).link = s.link := rfl
@[simp] theorem startAfresh_target (o : Option Instr) (s : State) :
    (startAfresh o s).target = s.target := rfl

/-! ### accept -/

@[simp] theorem accept_irCache (i : Instr) (s : State) : (accept i s).irCache = s.irCache := rfl
@[simp] theorem accept_pm (i : Instr) (s : State) : (accept i s).pm = s.pm := rfl
@[simp] theorem accept_device (i : Instr) (s : State) : (accept i s).device = s.device := rfl
@[simp] theorem accept_running (i : Instr) (s : State) : (accept i s).running = some i := rfl
@[simp] theorem accept_active (i : Instr) (s : State) : (accept i s).active = true := rfl
@[simp] theorem accept_pos (i : Instr) (s : State) : (accept i s).pos = 0 := rfl
@[simp] theorem accept_caps (i : Instr) (s : State) : (accept i s).caps = [] := rfl
@[simp] theorem accept_polls (i : Instr) (s : State) : (accept i s).polls = 0 := rfl
@[simp] theorem accept_port (i : Instr) (s : State) : (accept i s).port = s.port := rfl
@[simp] theorem accept_trace (i : Instr) (s : State) : (accept i s).trace = [] := rfl
@[simp] theorem accept_result (i : Instr) (s : State) : (accept i s).result = none := rfl
@[simp] theorem accept_cfg (i : Instr) (s : State) : (accept i s).cfg = s.cfg := rfl
@[simp] theorem accept_link (i : Instr) (s : State) : (accept i s).link = s.link := rfl
@[simp] theorem accept_target (i : Instr) (s : State) : (accept i s).target = s.target := rfl

/-! ### complete -/

@[simp] theorem complete_irCache (r : Result) (s : State) :
    (complete r s).irCache = s.irCache := rfl
@[simp] theorem complete_pm (r : Result) (s : State) : (complete r s).pm = s.pm := rfl
@[simp] theorem complete_device (r : Result) (s : State) : (complete r s).device = s.device := rfl
@[simp] theorem complete_running (r : Result) (s : State) : (complete r s).running = none := rfl
@[simp] theorem complete_active (r : Result) (s : State) : (complete r s).active = false := rfl
@[simp] theorem complete_pos (r : Result) (s : State) : (complete r s).pos = 0 := rfl
@[simp] theorem complete_caps (r : Result) (s : State) : (complete r s).caps = [] := rfl
@[simp] theorem complete_polls (r : Result) (s : State) : (complete r s).polls = 0 := rfl
@[simp] theorem complete_port (r : Result) (s : State) : (complete r s).port = s.port := rfl
@[simp] theorem complete_trace (r : Result) (s : State) : (complete r s).trace = s.trace := rfl
@[simp] theorem complete_result (r : Result) (s : State) : (complete r s).result = some r := rfl
@[simp] theorem complete_cfg (r : Result) (s : State) : (complete r s).cfg = s.cfg := rfl
@[simp] theorem complete_link (r : Result) (s : State) : (complete r s).link = s.link := rfl
@[simp] theorem complete_target (r : Result) (s : State) : (complete r s).target = s.target := rfl

/-! ### issue -/

@[simp] theorem issue_irCache (req : Scan) (s : State) : (issue req s).irCache = s.irCache := rfl
@[simp] theorem issue_pm (req : Scan) (s : State) : (issue req s).pm = s.pm := rfl
@[simp] theorem issue_device (req : Scan) (s : State) : (issue req s).device = s.device := rfl
@[simp] theorem issue_running (req : Scan) (s : State) : (issue req s).running = s.running := rfl
@[simp] theorem issue_active (req : Scan) (s : State) : (issue req s).active = s.active := rfl
@[simp] theorem issue_pos (req : Scan) (s : State) : (issue req s).pos = s.pos + 1 := rfl
@[simp] theorem issue_caps (req : Scan) (s : State) : (issue req s).caps = s.caps := rfl
@[simp] theorem issue_polls (req : Scan) (s : State) : (issue req s).polls = s.polls := rfl
@[simp] theorem issue_port (req : Scan) (s : State) : (issue req s).port = s.port := rfl
@[simp] theorem issue_trace (req : Scan) (s : State) : (issue req s).trace = s.trace ++ [req] := rfl
@[simp] theorem issue_result (req : Scan) (s : State) : (issue req s).result = s.result := rfl
@[simp] theorem issue_cfg (req : Scan) (s : State) : (issue req s).cfg = s.cfg := rfl
@[simp] theorem issue_link (req : Scan) (s : State) : (issue req s).link = s.link := rfl
@[simp] theorem issue_target (req : Scan) (s : State) : (issue req s).target = s.target := rfl

/-! ### invalidateCache -/

@[simp] theorem invalidateCache_irCache (s : State) : (invalidateCache s).irCache = .unknown := rfl
@[simp] theorem invalidateCache_pm (s : State) : (invalidateCache s).pm = s.pm := rfl
@[simp] theorem invalidateCache_device (s : State) : (invalidateCache s).device = s.device := rfl
@[simp] theorem invalidateCache_running (s : State) : (invalidateCache s).running = s.running := rfl
@[simp] theorem invalidateCache_active (s : State) : (invalidateCache s).active = s.active := rfl
@[simp] theorem invalidateCache_pos (s : State) : (invalidateCache s).pos = s.pos := rfl
@[simp] theorem invalidateCache_caps (s : State) : (invalidateCache s).caps = s.caps := rfl
@[simp] theorem invalidateCache_polls (s : State) : (invalidateCache s).polls = s.polls := rfl
@[simp] theorem invalidateCache_port (s : State) : (invalidateCache s).port = s.port := rfl
@[simp] theorem invalidateCache_trace (s : State) : (invalidateCache s).trace = s.trace := rfl
@[simp] theorem invalidateCache_result (s : State) : (invalidateCache s).result = s.result := rfl
@[simp] theorem invalidateCache_cfg (s : State) : (invalidateCache s).cfg = s.cfg := rfl
@[simp] theorem invalidateCache_link (s : State) : (invalidateCache s).link = s.link := rfl
@[simp] theorem invalidateCache_target (s : State) : (invalidateCache s).target = s.target := rfl

/-! ### pushCapture -/

@[simp] theorem pushCapture_irCache (c : Nat) (s : State) :
    (pushCapture c s).irCache = s.irCache := rfl
@[simp] theorem pushCapture_pm (c : Nat) (s : State) : (pushCapture c s).pm = s.pm := rfl
@[simp] theorem pushCapture_device (c : Nat) (s : State) :
    (pushCapture c s).device = s.device := rfl
@[simp] theorem pushCapture_running (c : Nat) (s : State) :
    (pushCapture c s).running = s.running := rfl
@[simp] theorem pushCapture_active (c : Nat) (s : State) :
    (pushCapture c s).active = s.active := rfl
@[simp] theorem pushCapture_pos (c : Nat) (s : State) : (pushCapture c s).pos = s.pos := rfl
@[simp] theorem pushCapture_caps (c : Nat) (s : State) :
    (pushCapture c s).caps = s.caps ++ [BitVec.ofNat 15 c] := rfl
@[simp] theorem pushCapture_polls (c : Nat) (s : State) : (pushCapture c s).polls = s.polls := rfl
@[simp] theorem pushCapture_port (c : Nat) (s : State) : (pushCapture c s).port = s.port := rfl
@[simp] theorem pushCapture_trace (c : Nat) (s : State) : (pushCapture c s).trace = s.trace := rfl
@[simp] theorem pushCapture_result (c : Nat) (s : State) :
    (pushCapture c s).result = s.result := rfl
@[simp] theorem pushCapture_cfg (c : Nat) (s : State) : (pushCapture c s).cfg = s.cfg := rfl
@[simp] theorem pushCapture_link (c : Nat) (s : State) : (pushCapture c s).link = s.link := rfl
@[simp] theorem pushCapture_target (c : Nat) (s : State) :
    (pushCapture c s).target = s.target := rfl

/-! ### adapterReset -/

@[simp] theorem adapterReset_irCache (s : State) : (adapterReset s).irCache = .unknown := rfl
@[simp] theorem adapterReset_pm (s : State) : (adapterReset s).pm = s.pm := rfl
@[simp] theorem adapterReset_device (s : State) : (adapterReset s).device = s.device := rfl
@[simp] theorem adapterReset_running (s : State) : (adapterReset s).running = s.running := rfl
@[simp] theorem adapterReset_active (s : State) : (adapterReset s).active = s.active := rfl
@[simp] theorem adapterReset_pos (s : State) : (adapterReset s).pos = s.pos := rfl
@[simp] theorem adapterReset_caps (s : State) : (adapterReset s).caps = s.caps := rfl
@[simp] theorem adapterReset_polls (s : State) : (adapterReset s).polls = s.polls := rfl
@[simp] theorem adapterReset_port (s : State) : (adapterReset s).port = s.port := rfl
@[simp] theorem adapterReset_trace (s : State) : (adapterReset s).trace = s.trace := rfl
@[simp] theorem adapterReset_result (s : State) : (adapterReset s).result = s.result := rfl
@[simp] theorem adapterReset_cfg (s : State) : (adapterReset s).cfg = s.cfg := rfl
@[simp] theorem adapterReset_link (s : State) : (adapterReset s).link = s.link := rfl
@[simp] theorem adapterReset_target (s : State) : (adapterReset s).target = s.target := rfl

/-! ### relaunch -/

@[simp] theorem relaunch_irCache (s : State) : (relaunch s).irCache = .unknown := rfl
@[simp] theorem relaunch_pm (s : State) : (relaunch s).pm = .idle := rfl
@[simp] theorem relaunch_device (s : State) : (relaunch s).device = false := rfl
@[simp] theorem relaunch_running (s : State) : (relaunch s).running = none := rfl
@[simp] theorem relaunch_active (s : State) : (relaunch s).active = false := rfl
@[simp] theorem relaunch_pos (s : State) : (relaunch s).pos = 0 := rfl
@[simp] theorem relaunch_caps (s : State) : (relaunch s).caps = [] := rfl
@[simp] theorem relaunch_polls (s : State) : (relaunch s).polls = 0 := rfl
@[simp] theorem relaunch_port (s : State) : (relaunch s).port = s.port := rfl
@[simp] theorem relaunch_trace (s : State) : (relaunch s).trace = [] := rfl
@[simp] theorem relaunch_result (s : State) : (relaunch s).result = none := rfl
@[simp] theorem relaunch_cfg (s : State) : (relaunch s).cfg = s.cfg := rfl
@[simp] theorem relaunch_link (s : State) : (relaunch s).link = s.link := rfl
@[simp] theorem relaunch_target (s : State) : (relaunch s).target = s.target := rfl

/-! ### takeInput -/

@[simp] theorem takeInput_irCache (s : State) : (s.takeInput).irCache = s.irCache := rfl
@[simp] theorem takeInput_pm (s : State) : (s.takeInput).pm = s.pm := rfl
@[simp] theorem takeInput_device (s : State) : (s.takeInput).device = s.device := rfl
@[simp] theorem takeInput_running (s : State) : (s.takeInput).running = s.running := rfl
@[simp] theorem takeInput_active (s : State) : (s.takeInput).active = s.active := rfl
@[simp] theorem takeInput_pos (s : State) : (s.takeInput).pos = s.pos := rfl
@[simp] theorem takeInput_caps (s : State) : (s.takeInput).caps = s.caps := rfl
@[simp] theorem takeInput_polls (s : State) : (s.takeInput).polls = s.polls := rfl
@[simp] theorem takeInput_port (s : State) : (s.takeInput).port = s.port.tail := rfl
@[simp] theorem takeInput_trace (s : State) : (s.takeInput).trace = s.trace := rfl
@[simp] theorem takeInput_result (s : State) : (s.takeInput).result = s.result := rfl
@[simp] theorem takeInput_cfg (s : State) : (s.takeInput).cfg = s.cfg := rfl
@[simp] theorem takeInput_link (s : State) : (s.takeInput).link = s.link := rfl
@[simp] theorem takeInput_target (s : State) : (s.takeInput).target = s.target := rfl

/-! ### withFetchWord -/

@[simp] theorem withFetchWord_irCache (nbits w : Nat) (s : State) :
    (s.withFetchWord nbits w).irCache = s.irCache := rfl
@[simp] theorem withFetchWord_pm (nbits w : Nat) (s : State) :
    (s.withFetchWord nbits w).pm = s.pm := rfl
@[simp] theorem withFetchWord_device (nbits w : Nat) (s : State) :
    (s.withFetchWord nbits w).device = s.device := rfl
@[simp] theorem withFetchWord_running (nbits w : Nat) (s : State) :
    (s.withFetchWord nbits w).running = s.running := rfl
@[simp] theorem withFetchWord_active (nbits w : Nat) (s : State) :
    (s.withFetchWord nbits w).active = s.active := rfl
@[simp] theorem withFetchWord_pos (nbits w : Nat) (s : State) :
    (s.withFetchWord nbits w).pos = s.pos := rfl
@[simp] theorem withFetchWord_caps (nbits w : Nat) (s : State) :
    (s.withFetchWord nbits w).caps = s.caps := rfl
@[simp] theorem withFetchWord_polls (nbits w : Nat) (s : State) :
    (s.withFetchWord nbits w).polls = s.polls := rfl
@[simp] theorem withFetchWord_port (nbits w : Nat) (s : State) :
    (s.withFetchWord nbits w).port = .frame (tableFrame nbits w) :: s.port := rfl
@[simp] theorem withFetchWord_trace (nbits w : Nat) (s : State) :
    (s.withFetchWord nbits w).trace = s.trace := rfl
@[simp] theorem withFetchWord_result (nbits w : Nat) (s : State) :
    (s.withFetchWord nbits w).result = s.result := rfl
@[simp] theorem withFetchWord_cfg (nbits w : Nat) (s : State) :
    (s.withFetchWord nbits w).cfg = s.cfg := rfl
@[simp] theorem withFetchWord_link (nbits w : Nat) (s : State) :
    (s.withFetchWord nbits w).link = s.link := rfl
@[simp] theorem withFetchWord_target (nbits w : Nat) (s : State) :
    (s.withFetchWord nbits w).target = s.target := rfl

/-! ### ended -/

@[simp] theorem ended_irCache (trace : List Scan) (r : Result) (s : State) :
    (ended s trace r).irCache = s.irCache := rfl
@[simp] theorem ended_pm (trace : List Scan) (r : Result) (s : State) :
    (ended s trace r).pm = s.pm := rfl
@[simp] theorem ended_device (trace : List Scan) (r : Result) (s : State) :
    (ended s trace r).device = s.device := rfl
@[simp] theorem ended_running (trace : List Scan) (r : Result) (s : State) :
    (ended s trace r).running = none := rfl
@[simp] theorem ended_active (trace : List Scan) (r : Result) (s : State) :
    (ended s trace r).active = false := rfl
@[simp] theorem ended_pos (trace : List Scan) (r : Result) (s : State) :
    (ended s trace r).pos = 0 := rfl
@[simp] theorem ended_caps (trace : List Scan) (r : Result) (s : State) :
    (ended s trace r).caps = [] := rfl
@[simp] theorem ended_polls (trace : List Scan) (r : Result) (s : State) :
    (ended s trace r).polls = 0 := rfl
@[simp] theorem ended_port (trace : List Scan) (r : Result) (s : State) :
    (ended s trace r).port = s.port := rfl
@[simp] theorem ended_trace (trace : List Scan) (r : Result) (s : State) :
    (ended s trace r).trace = trace := rfl
@[simp] theorem ended_result (trace : List Scan) (r : Result) (s : State) :
    (ended s trace r).result = some r := rfl
@[simp] theorem ended_cfg (trace : List Scan) (r : Result) (s : State) :
    (ended s trace r).cfg = s.cfg := rfl
@[simp] theorem ended_link (trace : List Scan) (r : Result) (s : State) :
    (ended s trace r).link = s.link := rfl
@[simp] theorem ended_target (trace : List Scan) (r : Result) (s : State) :
    (ended s trace r).target = s.target := rfl

end Sys2Proof.Machine
end

