-- ==== Sys2Proof/Laws/Ops.lean ====
section
/-! SUPPORT. The laws of the shared operations. Three parts: how a run is taken apart (`Run.Meets`, a
triple over the three ends of a run), what the environment's answers depend on, and one lemma for each
operation that says what it does when its scans are answered and what it keeps however it ends. -/

namespace Sys2Proof.Machine

/-! ### Runs -/

section Runs

variable {α β : Type}

@[simp] theorem Run.andThen_ok (v : α) (s : State) (k : α → State → Run β) :
    (Run.ok v s).andThen k = k v s := rfl

@[simp] theorem Run.andThen_err (kind : ErrKind) (info : ErrInfo) (s : State)
    (k : α → State → Run β) : (Run.err kind info s).andThen k = .err kind info s := rfl

@[simp] theorem Run.andThen_stuck (s : State) (k : α → State → Run β) :
    (Run.stuck s).andThen k = .stuck s := rfl

@[simp] theorem Run.onError_ok (clause : State → State) (v : α) (s : State) :
    (Run.ok v s).onError clause = .ok v s := rfl

@[simp] theorem Run.onError_err (clause : State → State) (kind : ErrKind) (info : ErrInfo)
    (s : State) : (Run.err kind info s : Run α).onError clause = .err kind info (clause s) := rfl

@[simp] theorem Run.onError_stuck (clause : State → State) (s : State) :
    (Run.stuck s : Run α).onError clause = .stuck s := rfl

@[simp] theorem Run.record_ok (f : State → ErrInfo → ErrInfo) (v : α) (s : State) :
    (Run.ok v s).record f = .ok v s := rfl

@[simp] theorem Run.record_err (f : State → ErrInfo → ErrInfo) (kind : ErrKind) (info : ErrInfo)
    (s : State) : (Run.err kind info s : Run α).record f = .err kind (f s info) s := rfl

@[simp] theorem Run.record_stuck (f : State → ErrInfo → ErrInfo) (s : State) :
    (Run.stuck s : Run α).record f = .stuck s := rfl

@[simp] theorem Run.noData_ok (v : α) (s : State) : (Run.ok v s).noData = .ok .empty s := rfl

@[simp] theorem Run.noData_err (kind : ErrKind) (info : ErrInfo) (s : State) :
    (Run.err kind info s : Run α).noData = .err kind info s := rfl

@[simp] theorem Run.noData_stuck (s : State) : (Run.stuck s : Run α).noData = .stuck s := rfl

@[simp] theorem raise_eq (kind : ErrKind) (s : State) :
    (raise kind s : Run α) = .err kind {} s := rfl

@[simp] theorem finish_ok (data : OkData) (s : State) :
    finish (.ok data s) = complete (.ok data) s := rfl

@[simp] theorem finish_err (kind : ErrKind) (info : ErrInfo) (s : State) :
    finish (.err kind info s) = complete (.err kind info) s := rfl

@[simp] theorem finish_stuck (s : State) : finish (.stuck s) = s := rfl

/-- The end of an accepted operation is `ended`, whatever ran between. -/
theorem complete_eq_ended (r : Result) (s : State) : complete r s = ended s s.trace r := rfl

/-- However a run ends: with a value and a state that meet `ok`, an error that meets `err`, or waiting in
a state that meets `stuck`. -/
def Run.Meets (ok : α → State → Prop) (err : ErrKind → ErrInfo → State → Prop)
    (stuck : State → Prop) : Run α → Prop
  | .ok v s => ok v s
  | .err kind info s => err kind info s
  | .stuck s => stuck s

@[simp] theorem Run.meets_ok {P : α → State → Prop} {E : ErrKind → ErrInfo → State → Prop}
    {K : State → Prop} (v : α) (s : State) : (Run.ok v s).Meets P E K ↔ P v s := Iff.rfl

@[simp] theorem Run.meets_err {P : α → State → Prop} {E : ErrKind → ErrInfo → State → Prop}
    {K : State → Prop} (kind : ErrKind) (info : ErrInfo) (s : State) :
    (Run.err kind info s : Run α).Meets P E K ↔ E kind info s := Iff.rfl

@[simp] theorem Run.meets_stuck {P : α → State → Prop} {E : ErrKind → ErrInfo → State → Prop}
    {K : State → Prop} (s : State) : (Run.stuck s : Run α).Meets P E K ↔ K s := Iff.rfl

variable {P : α → State → Prop} {Q : β → State → Prop} {E E' : ErrKind → ErrInfo → State → Prop}
  {K K' : State → Prop}

theorem Run.Meets.mono {P' : α → State → Prop} {r : Run α} (h : r.Meets P E K)
    (hP : ∀ v s, P v s → P' v s) (hE : ∀ kind info s, E kind info s → E' kind info s)
    (hK : ∀ s, K s → K' s) : r.Meets P' E' K' := by
  cases r with
  | ok v s => exact hP v s h
  | err kind info s => exact hE kind info s h
  | stuck s => exact hK s h

theorem Run.Meets.andThen {r : Run α} {k : α → State → Run β} (h : r.Meets P E K)
    (hk : ∀ v s, P v s → (k v s).Meets Q E K) : (r.andThen k).Meets Q E K := by
  cases r with
  | ok v s => exact hk v s h
  | err kind info s => exact h
  | stuck s => exact h

theorem Run.Meets.noData {r : Run α} {D : OkData → State → Prop} (h : r.Meets P E K)
    (hk : ∀ v s, P v s → D .empty s) : r.noData.Meets D E K := h.andThen hk

theorem Run.Meets.onError {clause : State → State} {r : Run α} (h : r.Meets P E K)
    (hE : ∀ kind info s, E kind info s → E' kind info (clause s)) :
    (r.onError clause).Meets P E' K := by
  cases r with
  | ok v s => exact h
  | err kind info s => exact hE kind info s h
  | stuck s => exact h

theorem Run.Meets.record {f : State → ErrInfo → ErrInfo} {r : Run α} (h : r.Meets P E K)
    (hE : ∀ kind info s, E kind info s → E' kind (f s info) s) : (r.record f).Meets P E' K := by
  cases r with
  | ok v s => exact h
  | err kind info s => exact hE kind info s h
  | stuck s => exact h

/-- All three ends of a run leave a state that meets `I`. -/
def Run.Keeps (I : State → Prop) (r : Run α) : Prop := r.Meets (fun _ s => I s) (fun _ _ s => I s) I

variable {I : State → Prop}

theorem Run.Keeps.andThen {r : Run α} {k : α → State → Run β} (h : r.Keeps I)
    (hk : ∀ v s, I s → (k v s).Keeps I) : (r.andThen k).Keeps I := Run.Meets.andThen h hk

theorem Run.Keeps.andThenOk {f : α → State → β} {r : Run α} (h : r.Keeps I) :
    (r.andThen fun v s => .ok (f v s) s).Keeps I := Run.Meets.andThen h fun _ _ hs => hs

theorem Run.Keeps.noData {r : Run α} (h : r.Keeps I) : r.noData.Keeps I :=
  Run.Meets.noData h fun _ _ hs => hs

theorem Run.Keeps.onError {clause : State → State} {r : Run α} (h : r.Keeps I)
    (hc : ∀ s, I s → I (clause s)) : (r.onError clause).Keeps I :=
  Run.Meets.onError h fun _ _ s hs => hc s hs

theorem Run.Keeps.record {f : State → ErrInfo → ErrInfo} {r : Run α} (h : r.Keeps I) :
    (r.record f).Keeps I := Run.Meets.record h fun _ _ _ hs => hs

/-- What a run keeps holds of the state an operation leaves. -/
theorem Run.Keeps.finish {r : Run OkData} (h : r.Keeps I) (hc : ∀ res s, I s → I (complete res s)) :
    I (finish r) := by
  cases r with
  | ok v s => exact hc _ s h
  | err kind info s => exact hc _ s h
  | stuck s => exact h

end Runs

/-! ### The environment -/

/-- The environment of `t` around the block of `s`. -/
def withEnv (t s : State) : State := { s with link := t.link, target := t.target }

/-- An answer changes the environment only. -/
theorem answerScan_frame {req : Scan} {s t : State} {a : Answer} (h : answerScan req s = (a, t)) :
    t = withEnv t s := by
  unfold answerScan at h
  split at h <;> cases h <;> rfl

/-- An answer depends on the configuration and the environment only. -/
theorem answerScan_of {req : Scan} {s t : State} {a : Answer} (h : answerScan req s = (a, t))
    {s' : State} (hc : s'.cfg = s.cfg) (hl : s'.link = s.link) (ht : s'.target = s.target) :
    answerScan req s' = (a, withEnv t s') := by
  unfold answerScan at h ⊢
  rw [hl, hc, ht]
  split at h <;> cases h <;> simp_all [withEnv]

/-- The answers to a first scan and the scans after it. -/
theorem answerScans_cons {req : Scan} {reqs : List Scan} {s t : State} {as : List Answer}
    (h : answerScans (req :: reqs) s = (as, t)) :
    ∃ a as' m, answerScan req s = (a, m) ∧ answerScans reqs m = (as', t) ∧ as = a :: as' := by
  rcases hm : answerScan req s with ⟨a, m⟩
  rcases hr : answerScans reqs m with ⟨as', u⟩
  simp only [answerScans, hm, hr, Prod.mk.injEq] at h
  exact ⟨a, as', m, rfl, by rw [hr, h.2], h.1.symm⟩

theorem answerScans_of_cons {req : Scan} {reqs : List Scan} {s t m : State} {a : Answer}
    {as : List Answer} (h : answerScan req s = (a, m)) (hr : answerScans reqs m = (as, t)) :
    answerScans (req :: reqs) s = (a :: as, t) := by simp only [answerScans, h, hr]

theorem answerScans_frame {reqs : List Scan} : ∀ {s t : State} {as : List Answer},
    answerScans reqs s = (as, t) → t = withEnv t s := by
  induction reqs with
  | nil => intro s t as h; cases h; rfl
  | cons req reqs ih =>
    intro s t as h
    obtain ⟨a, as', m, h1, h2, -⟩ := answerScans_cons h
    have e1 := answerScan_frame h1
    have e2 := ih h2
    rw [e1] at e2
    exact e2

theorem answerScans_of {reqs : List Scan} : ∀ {s t : State} {as : List Answer},
    answerScans reqs s = (as, t) → ∀ {s' : State}, s'.cfg = s.cfg → s'.link = s.link →
    s'.target = s.target → answerScans reqs s' = (as, withEnv t s') := by
  induction reqs with
  | nil =>
    intro s t as h s' _ hl ht
    cases h
    simp only [answerScans, withEnv, ← hl, ← ht]
  | cons req reqs ih =>
    intro s t as h s' hc hl ht
    obtain ⟨a, as', m, h1, h2, rfl⟩ := answerScans_cons h
    have h1' := answerScan_of h1 hc hl ht
    have hcfg : (withEnv m s').cfg = m.cfg := by rw [answerScan_frame h1]; exact hc
    exact answerScans_of_cons h1' (ih h2 hcfg rfl rfl)

theorem answerScans_cfg {reqs : List Scan} {s t : State} {as : List Answer}
    (h : answerScans reqs s = (as, t)) : t.cfg = s.cfg := by rw [answerScans_frame h]; rfl

theorem answerScans_length {reqs : List Scan} : ∀ {s t : State} {as : List Answer},
    answerScans reqs s = (as, t) → as.length = reqs.length := by
  induction reqs with
  | nil => intro s t as h; cases h; rfl
  | cons req reqs ih =>
    intro s t as h
    obtain ⟨a, as', m, -, h2, rfl⟩ := answerScans_cons h
    rw [List.length_cons, List.length_cons, ih h2]

/-- Answers to a list of scans, split where the list is. -/
theorem answerScans_split {reqs reqs' : List Scan} : ∀ {s t : State} {as as' : List Answer},
    answerScans (reqs ++ reqs') s = (as ++ as', t) → as.length = reqs.length →
    ∃ m, answerScans reqs s = (as, m) ∧ answerScans reqs' m = (as', t) := by
  induction reqs with
  | nil =>
    intro s t as as' h hl
    cases List.length_eq_zero_iff.mp hl
    exact ⟨s, rfl, h⟩
  | cons req reqs ih =>
    intro s t as as' h hl
    cases as with
    | nil => cases hl
    | cons a as =>
      obtain ⟨a', rest, m, h1, h2, he⟩ := answerScans_cons h
      obtain ⟨rfl, rfl⟩ := List.cons.inj he
      obtain ⟨m', h3, h4⟩ := ih h2 (by simpa using hl)
      exact ⟨m', answerScans_of_cons h1 h3, h4⟩

/-- `t` is the state after these scans were issued from `s` and answered. -/
def scanned (reqs : List Scan) (t : State) : State :=
  { t with trace := t.trace ++ reqs, pos := t.pos + reqs.length }

/-- How a part of an operation ends by the answer to its one scan. -/
def Run.ofAnswer {α : Type} (ok : Nat → Run α) (onErr onSilent : State) : Answer → Run α
  | .ok c => ok c
  | .err e => .err (.transport e) {} onErr
  | .silent => .stuck onSilent

/-- One scan, by the environment's answer (00_scope R11; 60_exceptions R347). -/
theorem scan_eq {req : Scan} {s t : State} {a : Answer} (h : answerScan req s = (a, t)) :
    scan req s = Run.ofAnswer (fun c => .ok (trunc req.width c) (issue req t)) (issue req t)
      (issue req t) a := by
  have h' := answerScan_of h (s' := issue req s) rfl rfl rfl
  have hf := answerScan_frame h
  have he : withEnv t (issue req s) = issue req t := by rw [hf]; rfl
  rw [he] at h'
  unfold scan
  rw [h']
  cases a <;> rfl

/-! ### Scan primitives -/

/-- `write_instruction` with its checks passed, by the environment's answer (40_scan_primitives R111). -/
theorem writeInstruction_eq {w v : Nat} {s t : State} {a : Answer} (hb : s.cfg.tapBound = true)
    (h1 : 1 ≤ w) (h8 : w ≤ 8) (hw : w = s.cfg.tapIrLen)
    (h : answerScan (.ir w (v % 2 ^ w)) s = (a, t)) :
    writeInstruction w v s = Run.ofAnswer
      (fun _ => .ok () { issue (.ir w (v % 2 ^ w)) t with
        irCache := .known (BitVec.ofNat 8 (v % 2 ^ w)) })
      { issue (.ir w (v % 2 ^ w)) t with irCache := .unknown } (issue (.ir w (v % 2 ^ w)) t) a := by
  have hs := scan_eq h
  unfold writeInstruction
  rw [if_neg (by simp [hb]), if_neg (by simp only [irMaxWidth]; omega), if_neg (by simp [hw]), trunc,
    hs]
  cases a <;> rfl

/-- `write_instruction` that fails a check (40_scan_primitives R111). -/
theorem writeInstruction_unbound {w v : Nat} {s : State} (hb : s.cfg.tapBound = false) :
    writeInstruction w v s = .err .invalidTap {} s := by simp [writeInstruction, hb]

theorem writeInstruction_overflow {w v : Nat} {s : State} (hb : s.cfg.tapBound = true)
    (hw : w = 0 ∨ 8 < w) : writeInstruction w v s = .err .widthOverflow {} s := by
  unfold writeInstruction
  rw [if_neg (by simp [hb]), if_pos (by simp only [irMaxWidth]; omega)]
  rfl

theorem writeInstruction_mismatch {w v : Nat} {s : State} (hb : s.cfg.tapBound = true)
    (h1 : 1 ≤ w) (h8 : w ≤ 8) (hw : w ≠ s.cfg.tapIrLen) :
    writeInstruction w v s = .err .widthMismatch {} s := by
  unfold writeInstruction
  rw [if_neg (by simp [hb]), if_neg (by simp only [irMaxWidth]; omega), if_pos hw]
  rfl

/-- `write_data` with its checks passed, by the environment's answer (40_scan_primitives R113). -/
theorem writeData_eq {w v : Nat} {s t : State} {a : Answer} (hb : s.cfg.tapBound = true)
    (h1 : 1 ≤ w) (h32 : w ≤ 32) (h : answerScan (.dr w (v % 2 ^ w)) s = (a, t)) :
    writeData w v s = Run.ofAnswer (fun c => .ok (c % 2 ^ w) (issue (.dr w (v % 2 ^ w)) t))
      (issue (.dr w (v % 2 ^ w)) t) (issue (.dr w (v % 2 ^ w)) t) a := by
  have hs := scan_eq h
  unfold writeData
  rw [if_neg (by simp [hb]), if_neg (by simp only [drMaxWidth]; omega), trunc, hs]
  cases a <;> rfl

theorem writeData_unbound {w v : Nat} {s : State} (hb : s.cfg.tapBound = false) :
    writeData w v s = .err .invalidTap {} s := by simp [writeData, hb]

theorem writeData_overflow {w v : Nat} {s : State} (hb : s.cfg.tapBound = true)
    (hw : w = 0 ∨ 32 < w) : writeData w v s = .err .widthOverflow {} s := by
  unfold writeData
  rw [if_neg (by simp [hb]), if_pos (by simp only [drMaxWidth]; omega)]
  rfl

/-- A cache hit (40_scan_primitives R115). -/
theorem ensureInstruction_hit {d : Nat} {s : State} (h : s.irCache = loaded d) :
    ensureInstruction d s = .ok () s := if_pos h

/-- A cache miss (40_scan_primitives R115). -/
theorem ensureInstruction_miss {d : Nat} {s : State} (h : s.irCache ≠ loaded d) :
    ensureInstruction d s = writeInstruction 4 (d % 16) s := if_neg h

/-- `ensure_instruction` on a fitting TAP with its scan, if any, answered `Ok`: the code is cached. -/
theorem ensureInstruction_ok {d : Nat} {s t : State} {cs : List Nat} (hfit : TapFits s)
    (h : answerScans (loadScans s.irCache d) s = (oks cs, t)) :
    ensureInstruction d s = .ok () { scanned (loadScans s.irCache d) t with irCache := loaded d } := by
  unfold loadScans at h ⊢
  split at h
  · next hhit =>
    rw [ensureInstruction_hit hhit, if_pos hhit]
    have e : s = t := congrArg Prod.snd h
    subst e
    rw [← hhit]
    cases s
    simp [scanned]
  · next hmiss =>
    rw [ensureInstruction_miss hmiss, if_neg hmiss]
    cases cs with
    | nil => simpa [oks] using answerScans_length h
    | cons c cs =>
      obtain ⟨a, as', m, h1, h2, he⟩ := answerScans_cons h
      obtain ⟨rfl, -⟩ := List.cons.inj he
      have e2 : m = t := congrArg Prod.snd h2
      subst e2
      have h' : answerScan (.ir 4 (d % 16 % 2 ^ 4)) s = (.ok c, m) := by
        rw [show d % 16 % 2 ^ 4 = d % 16 by omega]; exact h1
      rw [writeInstruction_eq hfit.1 (by omega) (by omega) hfit.2.symm h']
      simp only [show d % 16 % 2 ^ 4 = d % 16 by omega]
      rfl

/-! ### Command executor -/

/-- `(v mod 2^15)` of a word and of its bits. -/
theorem cmdWord_trunc (c : Nat) : BitVec.ofNat 15 (c % 32768) = BitVec.ofNat 15 c := by
  apply BitVec.eq_of_toNat_eq; simp

/-- The words of a script with every scan answered `Ok` (41_command_executor R140). -/
theorem runWords_ok {words : List Nat} : ∀ {s t : State} {cs : List Nat}, s.cfg.tapBound = true →
    answerScans (drScans (words.map (· % 2 ^ 15))) s = (oks cs, t) →
    runWords words s = .ok () { scanned (drScans (words.map (· % 2 ^ 15))) t with
      caps := t.caps ++ cs.map (BitVec.ofNat 15) } := by
  induction words with
  | nil =>
    intro s t cs _ h
    cases cs with
    | nil => cases h; simp [runWords, scanned, drScans]
    | cons c cs => simpa [oks, drScans] using answerScans_length h
  | cons w words ih =>
    intro s t cs hb h
    cases cs with
    | nil => simpa [oks, drScans] using answerScans_length h
    | cons c cs =>
      obtain ⟨a, as', m, h1', hrest, he⟩ := answerScans_cons h
      obtain ⟨rfl, rfl⟩ := List.cons.inj he
      have hm := answerScan_frame h1'
      have hcfg : m.cfg = s.cfg := by rw [hm]; rfl
      have hr := answerScans_of hrest
        (s' := pushCapture (c % 2 ^ 15) (issue (.dr 15 (w % 2 ^ 15)) m)) rfl rfl rfl
      have hword := writeData_eq (v := w) hb (by omega) (by omega) h1'
      rw [runWords, show pcmdWidth = 15 from rfl, hword, Run.ofAnswer, Run.andThen_ok,
        ih (by simp [hcfg, hb]) hr]
      have hf := answerScans_frame hrest
      rw [hf]
      simp [scanned, drScans, withEnv, cmdWord_trunc, issue, pushCapture, Nat.add_comm,
        Nat.add_left_comm, List.append_assoc]

/-- The words of a script whose scan of one word fails (41_command_executor R143). -/
theorem runWords_err {before : List Nat} {failed : Nat} {later : List Nat} {e : TransportError} :
    ∀ {s t : State} {cs : List Nat}, s.cfg.tapBound = true →
    answerScans (drScans ((before ++ [failed]).map (· % 2 ^ 15))) s = (oks cs ++ [.err e], t) →
    runWords (before ++ failed :: later) s =
      .err (.transport e) {} { scanned (drScans ((before ++ [failed]).map (· % 2 ^ 15))) t with
        caps := t.caps ++ cs.map (BitVec.ofNat 15) } := by
  induction before with
  | nil =>
    intro s t cs hb h
    have hl := answerScans_length h
    have hcs : cs = [] := by cases cs with
      | nil => rfl
      | cons c cs => simp [oks, drScans] at hl
    subst hcs
    obtain ⟨a, as', m, h1', h2, he⟩ := answerScans_cons h
    obtain ⟨rfl, -⟩ := List.cons.inj he
    have e2 : m = t := congrArg Prod.snd h2
    subst e2
    have hword := writeData_eq (v := failed) hb (by omega) (by omega) h1'
    rw [List.nil_append, runWords, show pcmdWidth = 15 from rfl, hword, Run.ofAnswer]
    simp [scanned, drScans, issue]
  | cons w before ih =>
    intro s t cs hb h
    cases cs with
    | nil =>
      have hl := answerScans_length h
      simp [oks, drScans] at hl
    | cons c cs =>
      obtain ⟨a, as', m, h1', hrest, he⟩ := answerScans_cons h
      obtain ⟨rfl, rfl⟩ := List.cons.inj he
      have hm := answerScan_frame h1'
      have hcfg : m.cfg = s.cfg := by rw [hm]; rfl
      have hr := answerScans_of hrest
        (s' := pushCapture (c % 2 ^ 15) (issue (.dr 15 (w % 2 ^ 15)) m)) rfl rfl rfl
      have hword := writeData_eq (v := w) hb (by omega) (by omega) h1'
      rw [List.cons_append, runWords, show pcmdWidth = 15 from rfl, hword, Run.ofAnswer, Run.andThen_ok,
        ih (by simp [hcfg, hb]) hr]
      have hf := answerScans_frame hrest
      rw [hf]
      simp [scanned, drScans, withEnv, cmdWord_trunc, issue, pushCapture, Nat.add_comm,
        Nat.add_left_comm, List.append_assoc]

/-- `run_command_script` with every scan answered `Ok` (41_command_executor R140). -/
theorem runCommandScript_ok {words : List Nat} {s t : State} {cs : List Nat}
    (hb : s.cfg.tapBound = true)
    (h : answerScans (drScans (words.map (· % 2 ^ 15))) s = (oks cs, t)) :
    runCommandScript words s = .ok (cs.map (BitVec.ofNat 15))
      { scanned (drScans (words.map (· % 2 ^ 15))) t with caps := cs.map (BitVec.ofNat 15) } := by
  have h' := answerScans_of h (s' := { s with caps := [] }) rfl rfl rfl
  rw [runCommandScript, runWords_ok (by exact hb) h']
  rw [answerScans_frame h]
  simp [scanned, withEnv]

/-- `run_command_script` whose scan of one word fails (41_command_executor R143). -/
theorem runCommandScript_err {before : List Nat} {failed : Nat} {later : List Nat}
    {e : TransportError} {s t : State} {cs : List Nat} (hb : s.cfg.tapBound = true)
    (h : answerScans (drScans ((before ++ [failed]).map (· % 2 ^ 15))) s =
      (oks cs ++ [.err e], t)) :
    runCommandScript (before ++ failed :: later) s =
      .err (.transport e) { partialCaps := some (cs.map (BitVec.ofNat 15)) }
        { scanned (drScans ((before ++ [failed]).map (· % 2 ^ 15))) t with
          caps := cs.map (BitVec.ofNat 15) } := by
  have h' := answerScans_of h (s' := { s with caps := [] }) rfl rfl rfl
  rw [runCommandScript, runWords_err (by exact hb) h']
  rw [answerScans_frame h]
  simp [scanned, withEnv]

/-- A command word's bits are its own low 15 bits. -/
theorem map_toNat_trunc (words : List CmdWord) :
    (words.map BitVec.toNat).map (· % 2 ^ 15) = words.map BitVec.toNat := by
  rw [List.map_map]
  exact List.map_congr_left fun w _ => Nat.mod_eq_of_lt w.isLt

/-- A script inside another operation with every scan answered `Ok`. -/
theorem runScriptInside_ok {words : List CmdWord} {s t : State} {cs : List Nat}
    (hb : s.cfg.tapBound = true)
    (h : answerScans (drScans (words.map BitVec.toNat)) s = (oks cs, t)) :
    runScriptInside words s = .ok (cs.map (BitVec.ofNat 15))
      { scanned (drScans (words.map BitVec.toNat)) t with caps := cs.map (BitVec.ofNat 15) } := by
  rw [← map_toNat_trunc] at h
  rw [runScriptInside, runCommandScript_ok hb h, map_toNat_trunc]
  rfl

/-! ### The scan phases of the composed operations, with every scan answered -/

/-- `write_data` with its scan answered `Ok`, in the form of a list of scans. -/
theorem writeData_ok {w v : Nat} {s t : State} {cs : List Nat} (hb : s.cfg.tapBound = true)
    (h1 : 1 ≤ w) (h32 : w ≤ 32) (h : answerScans [.dr w (v % 2 ^ w)] s = (oks cs, t)) :
    ∃ c, writeData w v s = .ok c (scanned [.dr w (v % 2 ^ w)] t) := by
  cases cs with
  | nil => simpa [oks] using answerScans_length h
  | cons c cs =>
    obtain ⟨a, as', m, h1', h2, he⟩ := answerScans_cons h
    obtain ⟨rfl, -⟩ := List.cons.inj he
    have e : m = t := congrArg Prod.snd h2
    subst e
    exact ⟨_, writeData_eq hb h1 h32 h1'⟩

/-- The opening load and the script of a memory operation, every scan answered `Ok`
(44_memory_ops R240). -/
theorem scriptPhase_ok {words : List CmdWord} {s t : State} {opening cs : List Nat}
    (hfit : TapFits s) (hlen : cs.length = words.length)
    (h : answerScans (operationScans s (words.map BitVec.toNat)) s = (oks opening ++ oks cs, t)) :
    scriptPhase words s = .ok (cs.map (BitVec.ofNat 15))
      { scanned (operationScans s (words.map BitVec.toNat)) t with
        irCache := loaded s.cfg.irProgCommands, caps := cs.map (BitVec.ofNat 15) } := by
  have hl := answerScans_length h
  obtain ⟨m, h1, h2⟩ := answerScans_split h
    (by simp [operationScans, oks, drScans] at hl ⊢; omega)
  have hcfg := answerScans_cfg h1
  have hr := answerScans_of h2 (s' := { scanned (loadScans s.irCache s.cfg.irProgCommands) m with
    irCache := loaded s.cfg.irProgCommands }) rfl rfl rfl
  rw [scriptPhase, ensureInstruction_ok hfit h1, Run.andThen_ok,
    runScriptInside_ok (by show m.cfg.tapBound = true; rw [hcfg]; exact hfit.1) hr]
  rw [answerScans_frame h2]
  simp [scanned, withEnv, operationScans, List.append_assoc, Nat.add_assoc]

/-- A poll loop that sees so many busy captures and then a clear one, within the budget that is left
(44_memory_ops R241). -/
theorem pollLoop_clear {pollWord : CmdWord} {clear : Nat} {busy : List Nat} :
    ∀ {left : Nat} {s t : State}, s.cfg.tapBound = true → s.cfg.busyBit ≤ 14 →
    (∀ c ∈ busy, c.testBit s.cfg.busyBit = true) → clear.testBit s.cfg.busyBit = false →
    busy.length < left →
    answerScans (drScans (List.replicate (busy.length + 1) pollWord.toNat)) s =
      (oks busy ++ [.ok clear], t) →
    pollLoop pollWord left s = .ok ()
      { scanned (drScans (List.replicate (busy.length + 1) pollWord.toNat)) t with
        caps := [BitVec.ofNat 15 clear], polls := s.polls + busy.length + 1 } := by
  induction busy with
  | nil =>
    intro left s t hb hbit _ hclear hlt h
    cases left with
    | zero => omega
    | succ left =>
      have hs := runScriptInside_ok (words := [pollWord]) (cs := [clear]) hb h
      rw [pollLoop, hs, Run.andThen_ok]
      have hcfg := answerScans_cfg h
      simp only [captureAt, List.map_cons, List.map_nil, List.getD_cons_zero, busyFlag, scanned,
        hcfg]
      rw [if_neg (by simp [busyLevel, BitVec.getLsbD_ofNat, hclear])]
      rw [answerScans_frame h]
      rfl
  | cons c busy ih =>
    intro left s t hb hbit hbusy hclear hlt h
    cases left with
    | zero => simp at hlt
    | succ left =>
      obtain ⟨m, h1, h2⟩ := answerScans_split (reqs := drScans [pollWord.toNat])
        (as := [.ok c]) h rfl
      have hs := runScriptInside_ok (words := [pollWord]) (cs := [c]) hb h1
      rw [pollLoop, hs, Run.andThen_ok]
      have hcfg := answerScans_cfg h1
      simp only [captureAt, List.map_cons, List.map_nil, List.getD_cons_zero, busyFlag]
      rw [if_pos (by
        simp [busyLevel, BitVec.getLsbD_ofNat, scanned, hcfg, hbusy c List.mem_cons_self]; omega)]
      have hr := answerScans_of h2 (s' := { scanned (drScans [pollWord.toNat]) m with
        caps := [BitVec.ofNat 15 c], polls := m.polls + 1 }) rfl rfl rfl
      refine (ih (s := { scanned (drScans [pollWord.toNat]) m with
        caps := [BitVec.ofNat 15 c], polls := m.polls + 1 }) ?_ ?_ ?_ ?_ ?_ hr).trans ?_
      · show m.cfg.tapBound = true; rw [hcfg]; exact hb
      · show m.cfg.busyBit ≤ 14; rw [hcfg]; exact hbit
      · intro d hd; show d.testBit m.cfg.busyBit = true
        rw [hcfg]; exact hbusy d (List.mem_cons_of_mem _ hd)
      · show clear.testBit m.cfg.busyBit = false; rw [hcfg]; exact hclear
      · simpa using hlt
      · have hm : m.polls = s.polls := by rw [answerScans_frame h1]; rfl
        rw [answerScans_frame h2]
        simp [scanned, withEnv, drScans, List.replicate_succ, hm, Nat.add_comm,
          Nat.add_left_comm]

/-- A poll loop that sees only busy captures ends after the budget that is left (44_memory_ops R241). -/
theorem pollLoop_budget {pollWord : CmdWord} {busy : List Nat} :
    ∀ {s t : State}, s.cfg.tapBound = true → s.cfg.busyBit ≤ 14 →
    (∀ c ∈ busy, c.testBit s.cfg.busyBit = true) →
    answerScans (drScans (List.replicate busy.length pollWord.toNat)) s = (oks busy, t) →
    ∃ caps, pollLoop pollWord busy.length s = .err .timeout {}
      { scanned (drScans (List.replicate busy.length pollWord.toNat)) t with
        caps := caps, polls := s.polls + busy.length } := by
  induction busy with
  | nil =>
    intro s t _ _ _ h
    have e : s = t := congrArg Prod.snd h
    subst e
    exact ⟨s.caps, by simp [pollLoop, scanned, drScans]⟩
  | cons c busy ih =>
    intro s t hb hbit hbusy h
    obtain ⟨m, h1, h2⟩ := answerScans_split (reqs := drScans [pollWord.toNat])
      (as := [.ok c]) h rfl
    have hs := runScriptInside_ok (words := [pollWord]) (cs := [c]) hb h1
    have hcfg := answerScans_cfg h1
    have hr := answerScans_of h2 (s' := { scanned (drScans [pollWord.toNat]) m with
      caps := [BitVec.ofNat 15 c], polls := m.polls + 1 }) rfl rfl rfl
    obtain ⟨caps, hi⟩ := ih (s := { scanned (drScans [pollWord.toNat]) m with
      caps := [BitVec.ofNat 15 c], polls := m.polls + 1 })
      (by show m.cfg.tapBound = true; rw [hcfg]; exact hb)
      (by show m.cfg.busyBit ≤ 14; rw [hcfg]; exact hbit)
      (by
        intro d hd; show d.testBit m.cfg.busyBit = true
        rw [hcfg]; exact hbusy d (List.mem_cons_of_mem _ hd)) hr
    refine ⟨caps, ?_⟩
    rw [List.length_cons, pollLoop, hs, Run.andThen_ok]
    simp only [captureAt, List.map_cons, List.map_nil, List.getD_cons_zero, busyFlag]
    rw [if_pos (by
      simp [busyLevel, BitVec.getLsbD_ofNat, scanned, hcfg, hbusy c List.mem_cons_self]; omega)]
    refine hi.trans ?_
    have hm : m.polls = s.polls := by rw [answerScans_frame h1]; rfl
    rw [answerScans_frame h2]
    simp [scanned, withEnv, drScans, List.replicate_succ, hm, Nat.add_comm, Nat.add_left_comm]

/-- A script of one word inside another operation whose scan fails. -/
theorem runScriptInside_failed {w : CmdWord} {s t : State} {e : TransportError} (hb : s.cfg.tapBound = true)
    (h : answerScans (drScans [w.toNat]) s = ([.err e], t)) :
    runScriptInside [w] s =
      .err (.transport e) {} { scanned (drScans [w.toNat]) t with caps := [] } := by
  have h' : answerScans (drScans (([] ++ [w.toNat]).map (· % 2 ^ 15))) s = (oks [] ++ [.err e], t) := by
    simpa [Nat.mod_eq_of_lt w.isLt, oks] using h
  have := runCommandScript_err (before := []) (failed := w.toNat) (later := []) hb h'
  simp only [runScriptInside, List.map_cons, List.map_nil]
  rw [List.nil_append] at this
  rw [this]
  simp [Nat.mod_eq_of_lt w.isLt]
/-- A poll loop that sees so many busy captures and then a scan that fails, within the budget that is left
(44_memory_ops R241). -/
theorem pollLoop_failed {pollWord : CmdWord} {e : TransportError} {busy : List Nat} :
    ∀ {left : Nat} {s t : State}, s.cfg.tapBound = true → s.cfg.busyBit ≤ 14 →
    (∀ c ∈ busy, c.testBit s.cfg.busyBit = true) → busy.length < left →
    answerScans (drScans (List.replicate (busy.length + 1) pollWord.toNat)) s =
      (oks busy ++ [.err e], t) →
    pollLoop pollWord left s = .err (.transport e) {}
      { scanned (drScans (List.replicate (busy.length + 1) pollWord.toNat)) t with
        caps := [], polls := s.polls + busy.length } := by
  induction busy with
  | nil =>
    intro left s t hb hbit _ hlt h
    cases left with
    | zero => simp at hlt
    | succ left =>
      rw [pollLoop, runScriptInside_failed hb h, Run.andThen_err, answerScans_frame h]
      rfl
  | cons c busy ih =>
    intro left s t hb hbit hbusy hlt h
    cases left with
    | zero => simp at hlt
    | succ left =>
      obtain ⟨m, h1, h2⟩ := answerScans_split (reqs := drScans [pollWord.toNat])
        (as := [.ok c]) h rfl
      have hs := runScriptInside_ok (words := [pollWord]) (cs := [c]) hb h1
      rw [pollLoop, hs, Run.andThen_ok]
      have hcfg := answerScans_cfg h1
      simp only [captureAt, List.map_cons, List.map_nil, List.getD_cons_zero, busyFlag]
      rw [if_pos (by
        simp [busyLevel, BitVec.getLsbD_ofNat, scanned, hcfg, hbusy c List.mem_cons_self]; omega)]
      have hr := answerScans_of h2 (s' := { scanned (drScans [pollWord.toNat]) m with
        caps := [BitVec.ofNat 15 c], polls := m.polls + 1 }) rfl rfl rfl
      refine (ih (s := { scanned (drScans [pollWord.toNat]) m with
        caps := [BitVec.ofNat 15 c], polls := m.polls + 1 }) ?_ ?_ ?_ ?_ hr).trans ?_
      · show m.cfg.tapBound = true; rw [hcfg]; exact hb
      · show m.cfg.busyBit ≤ 14; rw [hcfg]; exact hbit
      · intro d hd; show d.testBit m.cfg.busyBit = true
        rw [hcfg]; exact hbusy d (List.mem_cons_of_mem _ hd)
      · simpa using hlt
      · have hm : m.polls = s.polls := by rw [answerScans_frame h1]; rfl
        rw [answerScans_frame h2]
        simp [scanned, withEnv, drScans, List.replicate_succ, hm, Nat.add_comm,
          Nat.add_left_comm]

/-- A memory operation that reads, in a session and with valid arguments, every scan answered `Ok`
(44_memory_ops R240, R242). -/
theorem readOperation_ok {words : List CmdWord} {extract : List CmdWord → List Byte} {s t : State}
    {opening cs : List Nat} (hpm : s.pm = .commandsActive) (hfit : TapFits s)
    (hlen : cs.length = words.length)
    (h : answerScans (operationScans s (words.map BitVec.toNat)) s = (oks opening ++ oks cs, t)) :
    readOperation true words extract s = .ok (.bytes (extract (cs.map (BitVec.ofNat 15))))
      { scanned (operationScans s (words.map BitVec.toNat)) t with
        irCache := loaded s.cfg.irProgCommands, caps := cs.map (BitVec.ofNat 15) } := by
  rw [readOperation, if_neg (by simp [hpm]), if_neg (by simp), scriptPhase_ok hfit hlen h]
  rfl

/-- A memory operation whose controller check or argument check fails (44_memory_ops R244). -/
theorem readOperation_inactive {valid : Bool} {words : List CmdWord}
    {extract : List CmdWord → List Byte} {s : State} (hpm : s.pm ≠ .commandsActive) :
    readOperation valid words extract s = .err .notActive {} s := if_pos hpm

theorem readOperation_invalid {words : List CmdWord} {extract : List CmdWord → List Byte} {s : State}
    (hpm : s.pm = .commandsActive) :
    readOperation false words extract s = .err .badArgument {} s := by
  rw [readOperation, if_neg (by simp [hpm]), if_pos rfl]
  rfl

theorem writeOperation_inactive {valid : Bool} {words : List CmdWord} {pollWord : CmdWord} {s : State}
    (hpm : s.pm ≠ .commandsActive) :
    writeOperation valid words pollWord s = .err .notActive {} s := if_pos hpm

theorem writeOperation_invalid {words : List CmdWord} {pollWord : CmdWord} {s : State}
    (hpm : s.pm = .commandsActive) :
    writeOperation false words pollWord s = .err .badArgument {} s := by
  rw [writeOperation, if_neg (by simp [hpm]), if_pos rfl]
  rfl

/-- A memory operation that writes, in a session and with valid arguments, every scan answered `Ok` and
the target clear within the budget (44_memory_ops R240 to R242). -/
theorem writeOperation_ok {words : List CmdWord} {pollWord : CmdWord} {s t : State}
    {opening busy : List Nat} {clear : Nat} (hpm : s.pm = .commandsActive) (hfit : TapFits s)
    (hopen : opening.length = (operationScans s (words.map BitVec.toNat)).length)
    (hbit : s.cfg.busyBit ≤ 14) (hbusy : ∀ c ∈ busy, c.testBit s.cfg.busyBit = true)
    (hclear : clear.testBit s.cfg.busyBit = false) (hlt : busy.length < s.cfg.pollBudget)
    (h : answerScans (operationScans s (words.map BitVec.toNat)
      ++ drScans (List.replicate (busy.length + 1) pollWord.toNat)) s =
      (oks opening ++ oks busy ++ [.ok clear], t)) :
    writeOperation true words pollWord s = .ok .empty
      { scanned (operationScans s (words.map BitVec.toNat)
          ++ drScans (List.replicate (busy.length + 1) pollWord.toNat)) t with
        irCache := loaded s.cfg.irProgCommands, caps := [BitVec.ofNat 15 clear],
        polls := busy.length + 1 } := by
  rw [List.append_assoc] at h
  obtain ⟨m, h1, h2⟩ := answerScans_split h (by simpa [oks] using hopen)
  let k := (loadScans s.irCache s.cfg.irProgCommands).length
  have hsplit : oks opening = oks (opening.take k) ++ oks (opening.drop k) := by
    rw [oks, oks, oks, ← List.map_append, List.take_append_drop]
  have hk : (opening.drop k).length = words.length := by
    simp [operationScans, drScans] at hopen; simp [k, hopen]
  rw [hsplit] at h1
  have hcfg := answerScans_cfg h1
  have hr := answerScans_of h2 (s' := { scanned (operationScans s (words.map BitVec.toNat)) m with
    irCache := loaded s.cfg.irProgCommands,
    caps := (opening.drop k).map (BitVec.ofNat 15), polls := 0 }) rfl rfl rfl
  rw [writeOperation, if_neg (by simp [hpm]), if_neg (by simp), scriptPhase_ok hfit hk h1,
    Run.andThen_ok, busyPoll, show (scanned _ m).cfg.pollBudget = s.cfg.pollBudget by
      show m.cfg.pollBudget = _; rw [hcfg]]
  rw [pollLoop_clear (s := { scanned (operationScans s (words.map BitVec.toNat)) m with
    irCache := loaded s.cfg.irProgCommands,
    caps := (opening.drop k).map (BitVec.ofNat 15), polls := 0 })
    (by show m.cfg.tapBound = true; rw [hcfg]; exact hfit.1)
    (by show m.cfg.busyBit ≤ 14; rw [hcfg]; exact hbit)
    (by intro d hd; show d.testBit m.cfg.busyBit = true; rw [hcfg]; exact hbusy d hd)
    (by show clear.testBit m.cfg.busyBit = false; rw [hcfg]; exact hclear) hlt hr]
  rw [answerScans_frame h2]
  simp [scanned, withEnv, List.append_assoc, Nat.add_assoc]

/-- The same with a target that stays busy (44_memory_ops R241, R242). -/
theorem writeOperation_timeout {words : List CmdWord} {pollWord : CmdWord} {s t : State}
    {opening busy : List Nat} (hpm : s.pm = .commandsActive) (hfit : TapFits s)
    (hopen : opening.length = (operationScans s (words.map BitVec.toNat)).length)
    (hbit : s.cfg.busyBit ≤ 14) (hbusy : ∀ c ∈ busy, c.testBit s.cfg.busyBit = true)
    (h : answerScans (operationScans s (words.map BitVec.toNat)
      ++ drScans (List.replicate s.cfg.pollBudget pollWord.toNat)) s =
      (oks opening ++ oks busy, t)) :
    ∃ caps, writeOperation true words pollWord s =
      .err .timeout { polls := some s.cfg.pollBudget }
        { scanned (operationScans s (words.map BitVec.toNat)
            ++ drScans (List.replicate s.cfg.pollBudget pollWord.toNat)) t with
          pm := .error, irCache := loaded s.cfg.irProgCommands, caps := caps,
          polls := s.cfg.pollBudget } := by
  have hlen := answerScans_length h
  have hn : busy.length = s.cfg.pollBudget := by
    simp [oks, drScans] at hlen; omega
  obtain ⟨m, h1, h2⟩ := answerScans_split h (by simpa [oks] using hopen)
  let k := (loadScans s.irCache s.cfg.irProgCommands).length
  have hsplit : oks opening = oks (opening.take k) ++ oks (opening.drop k) := by
    rw [oks, oks, oks, ← List.map_append, List.take_append_drop]
  have hk : (opening.drop k).length = words.length := by
    simp [operationScans, drScans] at hopen; simp [k, hopen]
  rw [hsplit] at h1
  have hcfg := answerScans_cfg h1
  have hr := answerScans_of h2 (s' := { scanned (operationScans s (words.map BitVec.toNat)) m with
    irCache := loaded s.cfg.irProgCommands,
    caps := (opening.drop k).map (BitVec.ofNat 15), polls := 0 }) rfl rfl rfl
  rw [← hn] at hr
  obtain ⟨caps, hp⟩ := pollLoop_budget
    (s := { scanned (operationScans s (words.map BitVec.toNat)) m with
      irCache := loaded s.cfg.irProgCommands,
      caps := (opening.drop k).map (BitVec.ofNat 15), polls := 0 })
    (by show m.cfg.tapBound = true; rw [hcfg]; exact hfit.1)
    (by show m.cfg.busyBit ≤ 14; rw [hcfg]; exact hbit)
    (by intro d hd; show d.testBit m.cfg.busyBit = true; rw [hcfg]; exact hbusy d hd) hr
  refine ⟨caps, ?_⟩
  rw [writeOperation, if_neg (by simp [hpm]), if_neg (by simp), scriptPhase_ok hfit hk h1,
    Run.andThen_ok, busyPoll, show (scanned _ m).cfg.pollBudget = busy.length by
      show m.cfg.pollBudget = _; rw [hcfg, hn]]
  rw [hp, hn]
  rw [answerScans_frame h2]
  simp [scanned, withEnv, toError, List.append_assoc, Nat.add_assoc]

/-- The same with a poll scan that fails (44_memory_ops R241, R242). -/
theorem writeOperation_pollFailed {words : List CmdWord} {pollWord : CmdWord} {s t : State}
    {opening busy : List Nat} {e : TransportError} (hpm : s.pm = .commandsActive) (hfit : TapFits s)
    (hopen : opening.length = (operationScans s (words.map BitVec.toNat)).length)
    (hbit : s.cfg.busyBit ≤ 14) (hbusy : ∀ c ∈ busy, c.testBit s.cfg.busyBit = true)
    (hlt : busy.length < s.cfg.pollBudget)
    (h : answerScans (operationScans s (words.map BitVec.toNat)
      ++ drScans (List.replicate (busy.length + 1) pollWord.toNat)) s =
      (oks opening ++ oks busy ++ [.err e], t)) :
    writeOperation true words pollWord s = .err (.transport e) { polls := some busy.length }
      { scanned (operationScans s (words.map BitVec.toNat)
          ++ drScans (List.replicate (busy.length + 1) pollWord.toNat)) t with
        pm := .error, irCache := loaded s.cfg.irProgCommands, caps := [],
        polls := busy.length } := by
  rw [List.append_assoc] at h
  obtain ⟨m, h1, h2⟩ := answerScans_split h (by simpa [oks] using hopen)
  let k := (loadScans s.irCache s.cfg.irProgCommands).length
  have hsplit : oks opening = oks (opening.take k) ++ oks (opening.drop k) := by
    rw [oks, oks, oks, ← List.map_append, List.take_append_drop]
  have hk : (opening.drop k).length = words.length := by
    simp [operationScans, drScans] at hopen; simp [k, hopen]
  rw [hsplit] at h1
  have hcfg := answerScans_cfg h1
  have hr := answerScans_of h2 (s' := { scanned (operationScans s (words.map BitVec.toNat)) m with
    irCache := loaded s.cfg.irProgCommands,
    caps := (opening.drop k).map (BitVec.ofNat 15), polls := 0 }) rfl rfl rfl
  rw [writeOperation, if_neg (by simp [hpm]), if_neg (by simp), scriptPhase_ok hfit hk h1,
    Run.andThen_ok, busyPoll, show (scanned _ m).cfg.pollBudget = s.cfg.pollBudget by
      show m.cfg.pollBudget = _; rw [hcfg]]
  rw [pollLoop_failed (s := { scanned (operationScans s (words.map BitVec.toNat)) m with
    irCache := loaded s.cfg.irProgCommands,
    caps := (opening.drop k).map (BitVec.ofNat 15), polls := 0 })
    (by show m.cfg.tapBound = true; rw [hcfg]; exact hfit.1)
    (by show m.cfg.busyBit ≤ 14; rw [hcfg]; exact hbit)
    (by intro d hd; show d.testBit m.cfg.busyBit = true; rw [hcfg]; exact hbusy d hd) hlt hr]
  rw [answerScans_frame h2]
  simp [scanned, withEnv, toError, List.append_assoc, Nat.add_assoc]

/-- Successful answers to scans, split where the list of scans is. -/
theorem answerScans_split_oks {reqs reqs' : List Scan} {s t : State} {cs : List Nat}
    (h : answerScans (reqs ++ reqs') s = (oks cs, t)) :
    ∃ cs₁ cs₂ m, answerScans reqs s = (oks cs₁, m) ∧ answerScans reqs' m = (oks cs₂, t) := by
  have hlen := answerScans_length h
  have hsplit : oks cs = oks (cs.take reqs.length) ++ oks (cs.drop reqs.length) := by
    rw [oks, oks, oks, ← List.map_append, List.take_append_drop]
  rw [hsplit] at h
  obtain ⟨m, h1, h2⟩ := answerScans_split h (by simp [oks] at hlen ⊢; omega)
  exact ⟨_, _, m, h1, h2⟩

/-- The enter sequence on a fitting TAP with every scan answered `Ok` (42_program_mode R162, R164). -/
theorem enterSequence_ok {s t : State} {cs : List Nat} (hfit : TapFits s) (hw : WidthsFit s.cfg)
    (h : answerScans (enterTrace s) s = (oks cs, t)) :
    enterSequence s = .ok () { scanned (enterTrace s) t with
      pm := .commandsActive, irCache := loaded s.cfg.irProgCommands } := by
  unfold enterTrace at h
  obtain ⟨c₁, c₅, m₄, h', h5⟩ := answerScans_split_oks h
  obtain ⟨c₁, c₄, m₃, h', h4⟩ := answerScans_split_oks h'
  obtain ⟨c₁, c₃, m₂, h', h3⟩ := answerScans_split_oks h'
  obtain ⟨c₁, c₂, m₁, h1, h2⟩ := answerScans_split_oks h'
  have e1 := answerScans_cfg h1
  have e2 := (answerScans_cfg h2).trans e1
  have e3 := (answerScans_cfg h3).trans e2
  have e4 := (answerScans_cfg h4).trans e3
  have f1 := answerScans_frame h1
  have f2 := answerScans_frame h2
  have f3 := answerScans_frame h3
  have f4 := answerScans_frame h4
  have f5 := answerScans_frame h5
  let u₁ : State := { scanned (loadScans s.irCache s.cfg.irAvrReset) m₁ with
    irCache := loaded s.cfg.irAvrReset }
  obtain ⟨d₂, w2⟩ := writeData_ok (s := u₁) (w := s.cfg.resetDrWidth) (v := s.cfg.resetAssert)
    (by show m₁.cfg.tapBound = true; rw [e1]; exact hfit.1) hw.1.1 hw.1.2
    (answerScans_of h2 rfl rfl rfl)
  let u₂ : State := setPm .resetAsserted
    (scanned [.dr s.cfg.resetDrWidth (s.cfg.resetAssert % 2 ^ s.cfg.resetDrWidth)] (withEnv m₂ u₁))
  have w3 := ensureInstruction_ok (s := u₂) (d := s.cfg.irProgEnable)
    (by show m₁.cfg.tapBound = true ∧ m₁.cfg.tapIrLen = 4; rw [e1]; exact hfit)
    (answerScans_of h3 (s' := u₂) (by show m₁.cfg = m₂.cfg; rw [e1, e2]) rfl rfl)
  let u₃ : State := { scanned (loadScans (loaded s.cfg.irAvrReset) s.cfg.irProgEnable)
    (withEnv m₃ u₂) with irCache := loaded s.cfg.irProgEnable }
  obtain ⟨d₄, w4⟩ := writeData_ok (s := u₃) (w := s.cfg.enableDrWidth) (v := s.cfg.enableSignature)
    (by show m₁.cfg.tapBound = true; rw [e1]; exact hfit.1) hw.2.1 hw.2.2
    (answerScans_of h4 (by show m₁.cfg = m₃.cfg; rw [e1, e3]) rfl rfl)
  let u₄ : State := setPm .programEnabled
    (scanned [.dr s.cfg.enableDrWidth (s.cfg.enableSignature % 2 ^ s.cfg.enableDrWidth)]
      (withEnv m₄ u₃))
  have w5 := ensureInstruction_ok (s := u₄) (d := s.cfg.irProgCommands)
    (by show m₁.cfg.tapBound = true ∧ m₁.cfg.tapIrLen = 4; rw [e1]; exact hfit)
    (answerScans_of h5 (s' := u₄) (by show m₁.cfg = m₄.cfg; rw [e1, e4]) rfl rfl)
  rw [enterSequence, ensureInstruction_ok hfit h1, Run.andThen_ok]
  show (writeData m₁.cfg.resetDrWidth m₁.cfg.resetAssert u₁).andThen _ = _
  rw [e1, w2, Run.andThen_ok]
  show (ensureInstruction m₁.cfg.irProgEnable u₂).andThen _ = _
  rw [e1, w3, Run.andThen_ok]
  show (writeData m₁.cfg.enableDrWidth m₁.cfg.enableSignature u₃).andThen _ = _
  rw [e1, w4, Run.andThen_ok]
  show (ensureInstruction m₁.cfg.irProgCommands u₄).andThen _ = _
  rw [e1, w5, Run.andThen_ok, f5, f4, f3, f2]
  simp [u₄, u₃, u₂, u₁, scanned, withEnv, enterTrace, setPm, List.append_assoc, Nat.add_assoc]
  omega

/-- The exit sequence on a fitting TAP with the reference no-op words and every scan answered `Ok`
(42_program_mode R165). -/
theorem exitSequence_ok {s t : State} {cs : List Nat} (hfit : TapFits s) (hw : WidthsFit s.cfg)
    (hcmd : s.cfg.cmd = referenceCmd) (h : answerScans (exitTrace s) s = (oks cs, t)) :
    ∃ caps, exitSequence s = .ok () { scanned (exitTrace s) t with
      pm := .idle, irCache := loaded s.cfg.irAvrReset, caps := caps } := by
  unfold exitTrace at h
  obtain ⟨c₁, c₆, m₅, h', h6⟩ := answerScans_split_oks h
  obtain ⟨c₁, c₅, m₄, h', h5⟩ := answerScans_split_oks h'
  obtain ⟨c₁, c₄, m₃, h', h4⟩ := answerScans_split_oks h'
  obtain ⟨c₁, c₃, m₂, h', h3⟩ := answerScans_split_oks h'
  obtain ⟨c₁, c₂, m₁, h1, h2⟩ := answerScans_split_oks h'
  have e1 := answerScans_cfg h1
  have e2 := (answerScans_cfg h2).trans e1
  have e3 := (answerScans_cfg h3).trans e2
  have e4 := (answerScans_cfg h4).trans e3
  have e5 := (answerScans_cfg h5).trans e4
  have f1 := answerScans_frame h1
  have f2 := answerScans_frame h2
  have f3 := answerScans_frame h3
  have f4 := answerScans_frame h4
  have f5 := answerScans_frame h5
  have f6 := answerScans_frame h6
  let u₁ : State := { scanned (loadScans s.irCache s.cfg.irProgCommands) m₁ with
    irCache := loaded s.cfg.irProgCommands }
  have w2 := runScriptInside_ok (s := u₁) (words := seq2Words referenceCmd.nop)
    (by show m₁.cfg.tapBound = true; rw [e1]; exact hfit.1) (answerScans_of h2 rfl rfl rfl)
  let u₂ : State := { scanned (drScans [0x2300, 0x3300]) (withEnv m₂ u₁) with
    caps := c₂.map (BitVec.ofNat 15) }
  have w3 := ensureInstruction_ok (s := u₂) (d := s.cfg.irProgEnable)
    (by show m₁.cfg.tapBound = true ∧ m₁.cfg.tapIrLen = 4; rw [e1]; exact hfit)
    (answerScans_of h3 (s' := u₂) (by show m₁.cfg = m₂.cfg; rw [e1, e2]) rfl rfl)
  let u₃ : State := { scanned (loadScans (loaded s.cfg.irProgCommands) s.cfg.irProgEnable)
    (withEnv m₃ u₂) with irCache := loaded s.cfg.irProgEnable }
  obtain ⟨d₄, w4⟩ := writeData_ok (s := u₃) (w := s.cfg.enableDrWidth) (v := s.cfg.disablePattern)
    (by show m₁.cfg.tapBound = true; rw [e1]; exact hfit.1) hw.2.1 hw.2.2
    (answerScans_of h4 (by show m₁.cfg = m₃.cfg; rw [e1, e3]) rfl rfl)
  let u₄ : State := setPm .programDisabled
    (scanned [.dr s.cfg.enableDrWidth (s.cfg.disablePattern % 2 ^ s.cfg.enableDrWidth)]
      (withEnv m₄ u₃))
  have w5 := ensureInstruction_ok (s := u₄) (d := s.cfg.irAvrReset)
    (by show m₁.cfg.tapBound = true ∧ m₁.cfg.tapIrLen = 4; rw [e1]; exact hfit)
    (answerScans_of h5 (s' := u₄) (by show m₁.cfg = m₄.cfg; rw [e1, e4]) rfl rfl)
  let u₅ : State := { scanned (loadScans (loaded s.cfg.irProgEnable) s.cfg.irAvrReset)
    (withEnv m₅ u₄) with irCache := loaded s.cfg.irAvrReset }
  obtain ⟨d₆, w6⟩ := writeData_ok (s := u₅) (w := s.cfg.resetDrWidth) (v := s.cfg.resetRelease)
    (by show m₁.cfg.tapBound = true; rw [e1]; exact hfit.1) hw.1.1 hw.1.2
    (answerScans_of h6 (by show m₁.cfg = m₅.cfg; rw [e1, e5]) rfl rfl)
  refine ⟨c₂.map (BitVec.ofNat 15), ?_⟩
  rw [exitSequence, ensureInstruction_ok hfit h1, Run.andThen_ok]
  show (runScriptInside (seq2Words m₁.cfg.cmd.nop) u₁).andThen _ = _
  rw [e1, hcmd, w2, Run.andThen_ok]
  show (ensureInstruction m₁.cfg.irProgEnable u₂).andThen _ = _
  rw [e1, w3, Run.andThen_ok]
  show (writeData m₁.cfg.enableDrWidth m₁.cfg.disablePattern u₃).andThen _ = _
  rw [e1, w4, Run.andThen_ok]
  show (ensureInstruction m₁.cfg.irAvrReset u₄).andThen _ = _
  rw [e1, w5, Run.andThen_ok]
  show (writeData m₁.cfg.resetDrWidth m₁.cfg.resetRelease u₅).andThen _ = _
  rw [e1, w6, Run.andThen_ok, f6, f5, f4, f3, f2]
  simp [u₅, u₄, u₃, u₂, u₁, scanned, withEnv, exitTrace, setPm, List.append_assoc, Nat.add_assoc]
  omega

/-! ### What an operation keeps however it ends -/

/-- A predicate on states that no scan and no capture can end. -/
structure ScanClosed (I : State → Prop) : Prop where
  scan : ∀ req s, I s → I (answerScan req (issue req s)).2
  caps : ∀ cs s, I s → I { s with caps := cs }

/-- A predicate on states that no raw operation and no busy-poll can end: also none of the writes of the
instruction cache (40_scan_primitives R111, R116) and of the poll counter (44_memory_ops R241). -/
structure OpClosed (I : State → Prop) : Prop extends ScanClosed I where
  forget : ∀ s, I s → I { s with irCache := .unknown }
  load : ∀ w v s, s.cfg.tapBound = true → 1 ≤ w → w ≤ 8 → w = s.cfg.tapIrLen → I s →
    I { s with irCache := .known (BitVec.ofNat 8 (trunc w v)) }
  pollStart : ∀ s, I s → I { s with polls := 0 }
  pollNext : ∀ s, I s → s.polls < s.cfg.pollBudget → I { s with polls := s.polls + 1 }

/-- A scan leaves the configuration and the block's own fields but the trace and the position. -/
theorem answerScan_issue (req : Scan) (s : State) :
    (answerScan req (issue req s)).2 = withEnv (answerScan req (issue req s)).2 (issue req s) := by
  rcases h : answerScan req (issue req s) with ⟨a, t⟩
  exact answerScan_frame h

section ScanKeeps

variable {I : State → Prop} (hI : ScanClosed I)

include hI

theorem scan_keeps (req : Scan) {s : State} (h : I s) : (scan req s).Keeps I := by
  have hs := hI.scan req s h
  unfold scan
  split <;> next heq => rw [heq] at hs; exact hs

theorem writeData_keeps (w v : Nat) {s : State} (h : I s) : (writeData w v s).Keeps I := by
  unfold writeData
  split
  · exact h
  split
  · exact h
  exact scan_keeps hI _ h

theorem runWords_keeps (words : List Nat) : ∀ {s : State}, I s → (runWords words s).Keeps I := by
  induction words with
  | nil => intro s h; exact h
  | cons w ws ih =>
    intro s h
    exact (writeData_keeps hI _ _ h).andThen fun c s' hs => ih (hI.caps _ _ hs)

theorem runCommandScript_keeps (words : List Nat) {s : State} (h : I s) :
    (runCommandScript words s).Keeps I :=
  (runWords_keeps hI words (hI.caps _ _ h)).record.andThen fun _ _ hs => hs

theorem runScriptInside_keeps (words : List CmdWord) {s : State} (h : I s) :
    (runScriptInside words s).Keeps I := (runCommandScript_keeps hI _ h).record

theorem runScriptOperation_keeps (words : List Nat) {s : State} (h : I s) :
    (runScriptOperation words s).Keeps I := (runCommandScript_keeps hI _ h).andThenOk

theorem shiftWord_keeps (word : CmdWord) {s : State} (h : I s) : (shiftWord word s).Keeps I :=
  runScriptOperation_keeps hI _ h

/-- The same with the poll counter and the configuration, which no script writes. -/
theorem ScanClosed.fixed (n : Nat) (c : Config) :
    ScanClosed fun s => I s ∧ s.polls = n ∧ s.cfg = c where
  scan req s h := by
    refine ⟨hI.scan req s h.1, ?_⟩
    rw [answerScan_issue]
    exact h.2
  caps cs s h := ⟨hI.caps cs s h.1, h.2⟩

end ScanKeeps

section Keeps

variable {I : State → Prop} (hI : OpClosed I)

include hI

theorem writeInstruction_keeps (w v : Nat) {s : State} (h : I s) :
    (writeInstruction w v s).Keeps I := by
  unfold writeInstruction
  split
  · exact h
  next hb =>
  split
  · exact h
  next hw =>
  split
  · exact h
  next hlen =>
  have hk := scan_keeps (hI.toScanClosed.fixed s.polls s.cfg) (.ir w (trunc w v)) ⟨h, rfl, rfl⟩
  simp only [irMaxWidth, not_or, not_lt] at hw
  split
  · next heq =>
    rw [heq] at hk
    refine hI.load w v _ ?_ hw.1 hw.2 ?_ hk.1
    · simpa [hk.2.2] using hb
    · rw [hk.2.2]; exact not_not.mp hlen
  · next heq => rw [heq] at hk; exact hI.forget _ hk.1
  · next heq => rw [heq] at hk; exact hk.1

theorem ensureInstruction_keeps (d : Nat) {s : State} (h : I s) :
    (ensureInstruction d s).Keeps I := by
  unfold ensureInstruction
  split
  · exact h
  · exact writeInstruction_keeps hI _ _ h

theorem scriptPhase_keeps (words : List CmdWord) {s : State} (h : I s) :
    (scriptPhase words s).Keeps I :=
  (ensureInstruction_keeps hI _ h).andThen fun _ _ hs => runScriptInside_keeps hI.toScanClosed _ hs

theorem pollLoop_keeps (pollWord : CmdWord) (left : Nat) :
    ∀ {s : State}, I s → s.polls + left ≤ s.cfg.pollBudget → (pollLoop pollWord left s).Keeps I := by
  induction left with
  | zero => intro s h _; exact h
  | succ left ih =>
    intro s h hle
    have hk := runScriptInside_keeps (hI.toScanClosed.fixed s.polls s.cfg) [pollWord] ⟨h, rfl, rfl⟩
    refine Run.Meets.andThen (hk.mono (fun _ _ h => h) (fun _ _ _ h => h.1) fun _ h => h.1) ?_
    intro cs s' hs
    have hs' := hI.pollNext s' hs.1 (by rw [hs.2.1, hs.2.2]; omega)
    dsimp only
    split
    · refine ih hs' ?_
      show s'.polls + 1 + left ≤ s'.cfg.pollBudget
      rw [hs.2.1, hs.2.2]; omega
    · exact hs'

theorem busyPoll_keeps (pollWord : CmdWord) {s : State} (h : I s) : (busyPoll pollWord s).Keeps I :=
  (pollLoop_keeps hI pollWord _ (hI.pollStart s h) (by simp)).record

theorem enterSequence_keeps (hpm : ∀ pm s, I s → I (setPm pm s)) {s : State} (h : I s) :
    (enterSequence s).Keeps I := by
  refine (ensureInstruction_keeps hI _ h).andThen fun _ s hs => ?_
  refine (writeData_keeps hI.toScanClosed _ _ hs).andThen fun _ s hs => ?_
  refine (ensureInstruction_keeps hI _ (hpm _ _ hs)).andThen fun _ s hs => ?_
  refine (writeData_keeps hI.toScanClosed _ _ hs).andThen fun _ s hs => ?_
  exact (ensureInstruction_keeps hI _ (hpm _ _ hs)).andThen fun _ s hs => hpm _ _ hs

theorem exitSequence_keeps (hpm : ∀ pm s, I s → I (setPm pm s)) {s : State} (h : I s) :
    (exitSequence s).Keeps I := by
  refine (ensureInstruction_keeps hI _ h).andThen fun _ s hs => ?_
  refine (runScriptInside_keeps hI.toScanClosed _ hs).andThen fun _ s hs => ?_
  refine (ensureInstruction_keeps hI _ hs).andThen fun _ s hs => ?_
  refine (writeData_keeps hI.toScanClosed _ _ hs).andThen fun _ s hs => ?_
  refine (ensureInstruction_keeps hI _ (hpm _ _ hs)).andThen fun _ s hs => ?_
  exact (writeData_keeps hI.toScanClosed _ _ hs).andThen fun _ s hs => hpm _ _ (hpm _ _ hs)

theorem enterProgrammingMode_keeps (hpm : ∀ pm s, I s → I (setPm pm s)) {s : State} (h : I s) :
    (enterProgrammingMode s).Keeps I := by
  unfold enterProgrammingMode
  split
  · exact h
  · exact (enterSequence_keeps hI hpm h).onError (hpm .error)

theorem exitProgrammingMode_keeps (hpm : ∀ pm s, I s → I (setPm pm s)) {s : State} (h : I s) :
    (exitProgrammingMode s).Keeps I := by
  unfold exitProgrammingMode
  split
  · exact h
  · exact (exitSequence_keeps hI hpm h).onError (hpm .error)

theorem readOperation_keeps (hpm : ∀ pm s, I s → I (setPm pm s)) (valid : Bool)
    (words : List CmdWord) (extract : List CmdWord → List Byte) {s : State} (h : I s) :
    (readOperation valid words extract s).Keeps I := by
  unfold readOperation
  split
  · exact h
  split
  · exact h
  exact ((scriptPhase_keeps hI words h).onError (hpm .error)).andThen fun _ _ hs => hs

theorem writeOperation_keeps (hpm : ∀ pm s, I s → I (setPm pm s)) (valid : Bool)
    (words : List CmdWord) (pollWord : CmdWord) {s : State} (h : I s) :
    (writeOperation valid words pollWord s).Keeps I := by
  unfold writeOperation
  split
  · exact h
  split
  · exact h
  exact (((scriptPhase_keeps hI words h).andThen fun _ _ hs => busyPoll_keeps hI _ hs).onError
    (hpm .error)).noData

theorem pageReadBody_keeps (hpm : ∀ pm s, I s → I (setPm pm s)) (p : Nat) {s : State} (h : I s) :
    (pageReadBody p s).Keeps I :=
  ((scriptPhase_keeps hI _ h).onError (hpm .error)).andThen fun _ _ hs => hs

theorem readPages_keeps (hpm : ∀ pm s, I s → I (setPm pm s)) (left : Nat) :
    ∀ (p : Nat) (buf : List Byte) {s : State}, I s → (readPages left p buf s).Keeps I := by
  induction left with
  | zero => intro p buf s h; exact h
  | succ left ih =>
    intro p buf s h
    exact (pageReadBody_keeps hI hpm p h).andThen fun _ _ hs => ih _ _ hs

theorem readFlashRange_keeps (hpm : ∀ pm s, I s → I (setPm pm s)) (b count : Nat) {s : State}
    (h : I s) : (readFlashRange b count s).Keeps I := by
  unfold readFlashRange
  split
  · exact h
  split
  · exact h
  split
  · exact h
  split
  · exact h
  refine (enterProgrammingMode_keeps hI hpm h).andThen fun _ s hs => ?_
  refine (readPages_keeps hI hpm _ _ _ hs).andThen fun _ s hs => ?_
  exact (exitProgrammingMode_keeps hI hpm hs).andThen fun _ s hs => hs

omit hI in
theorem createHandle_keeps (hd : ∀ s, TapFits s → I s → I { s with device := true }) {s : State}
    (h : I s) : (createHandle s).Keeps I := by
  unfold createHandle
  split
  · exact h
  next hb =>
  split
  · exact h
  next hl => exact hd _ ⟨by simpa using hb, not_not.mp hl⟩ h

end Keeps

end Sys2Proof.Machine
end

