-- ==== Sys2Proof/Laws/PerInstr.lean ====
section
/-! SUPPORT. For every instruction: its encoding has the width, the fixed bits and the field places of its
row in spec/opcode_table.json. -/

namespace Sys2Proof.Laws.EncodesAsItsRow

/-- The width and the bits of a frame, as the opcode table numbers them. -/
def frameBits : Frame → Nat × Nat
  | .hostOp op _ => (8, op.toNat)
  | .irScan code => (4, code.toNat)
  | .cmdWord _ _ word => (15, word.toNat)

/-- Width, match and mask of the row of an instruction in spec/opcode_table.json. -/
def row : Instr → Nat × Nat × Nat
  | .create => (8, 0x01, 0xFF)
  | .writeIr _ _ => (8, 0x02, 0xFF)
  | .writeDr _ _ => (8, 0x03, 0xFF)
  | .ensureIr _ => (8, 0x04, 0xFF)
  | .invalidateIr => (8, 0x05, 0xFF)
  | .runScript _ => (8, 0x06, 0xFF)
  | .enterProg => (8, 0x07, 0xFF)
  | .exitProg => (8, 0x08, 0xFF)
  | .chipErase => (8, 0x09, 0xFF)
  | .flashPageWrite _ _ => (8, 0x0A, 0xFF)
  | .flashPageRead _ => (8, 0x0B, 0xFF)
  | .eepromWrite _ _ => (8, 0x0C, 0xFF)
  | .eepromRead _ => (8, 0x0D, 0xFF)
  | .fuseHighWrite _ => (8, 0x0E, 0xFF)
  | .fuseLowWrite _ => (8, 0x0F, 0xFF)
  | .lockWrite _ => (8, 0x10, 0xFF)
  | .fuseHighRead => (8, 0x11, 0xFF)
  | .fuseLowRead => (8, 0x12, 0xFF)
  | .lockRead => (8, 0x13, 0xFF)
  | .fusesLockRead => (8, 0x14, 0xFF)
  | .signatureRead _ => (8, 0x15, 0xFF)
  | .calibrationRead _ => (8, 0x16, 0xFF)
  | .readFlashRange _ _ => (8, 0x17, 0xFF)
  | .readStatus => (8, 0x18, 0xFF)
  | .irAvrReset => (4, 0xC, 0xF)
  | .irProgEnable => (4, 0x4, 0xF)
  | .irProgCommands => (4, 0x5, 0xF)
  | .ceSeq0 => (15, 0x2380, 0x7FFF)
  | .ceSeq1 => (15, 0x3180, 0x7FFF)
  | .ceSeq2 => (15, 0x3380, 0x7FFF)
  | .ceSeq3 => (15, 0x3380, 0x7FFF)
  | .cePoll => (15, 0x3380, 0x7FFF)
  | .fwEnter => (15, 0x2310, 0x7FFF)
  | .addrHi _ => (15, 0x0700, 0x7F00)
  | .addrLo _ => (15, 0x0300, 0x7F00)
  | .dataLo _ => (15, 0x1300, 0x7F00)
  | .dataHi _ => (15, 0x1700, 0x7F00)
  | .latch0 => (15, 0x3700, 0x7FFF)
  | .latch1 => (15, 0x7700, 0x7FFF)
  | .latch2 => (15, 0x3700, 0x7FFF)
  | .fwWrite0 => (15, 0x3700, 0x7FFF)
  | .fwWrite1 => (15, 0x3500, 0x7FFF)
  | .fwWrite2 => (15, 0x3700, 0x7FFF)
  | .fwWrite3 => (15, 0x3700, 0x7FFF)
  | .fwPoll => (15, 0x3700, 0x7FFF)
  | .frEnter => (15, 0x2302, 0x7FFF)
  | .frRead0 => (15, 0x3200, 0x7FFF)
  | .frRead1 => (15, 0x3600, 0x7FFF)
  | .frRead2 => (15, 0x3700, 0x7FFF)
  | .ewEnter => (15, 0x2311, 0x7FFF)
  | .ewWrite0 => (15, 0x3300, 0x7FFF)
  | .ewWrite1 => (15, 0x3100, 0x7FFF)
  | .ewWrite2 => (15, 0x3300, 0x7FFF)
  | .ewWrite3 => (15, 0x3300, 0x7FFF)
  | .ewPoll => (15, 0x3300, 0x7FFF)
  | .erEnter => (15, 0x2303, 0x7FFF)
  | .erRead0 _ => (15, 0x3300, 0x7F00)
  | .erRead1 => (15, 0x3200, 0x7FFF)
  | .erRead2 => (15, 0x3300, 0x7FFF)
  | .fuEnter => (15, 0x2340, 0x7FFF)
  | .fuhWrite0 => (15, 0x3700, 0x7FFF)
  | .fuhWrite1 => (15, 0x3500, 0x7FFF)
  | .fuhWrite2 => (15, 0x3700, 0x7FFF)
  | .fuhWrite3 => (15, 0x3700, 0x7FFF)
  | .fuhPoll => (15, 0x3700, 0x7FFF)
  | .fulWrite0 => (15, 0x3300, 0x7FFF)
  | .fulWrite1 => (15, 0x3100, 0x7FFF)
  | .fulWrite2 => (15, 0x3300, 0x7FFF)
  | .fulWrite3 => (15, 0x3300, 0x7FFF)
  | .fulPoll => (15, 0x3300, 0x7FFF)
  | .lkEnter => (15, 0x2320, 0x7FFF)
  | .lkData _ => (15, 0x13C0, 0x7FC0)
  | .lkWrite0 => (15, 0x3300, 0x7FFF)
  | .lkWrite1 => (15, 0x3100, 0x7FFF)
  | .lkWrite2 => (15, 0x3300, 0x7FFF)
  | .lkWrite3 => (15, 0x3300, 0x7FFF)
  | .lkPoll => (15, 0x3300, 0x7FFF)
  | .flrEnter => (15, 0x2304, 0x7FFF)
  | .fuhRead0 => (15, 0x3E00, 0x7FFF)
  | .fuhRead1 => (15, 0x3F00, 0x7FFF)
  | .fulRead0 => (15, 0x3200, 0x7FFF)
  | .fulRead1 => (15, 0x3300, 0x7FFF)
  | .lkRead0 => (15, 0x3600, 0x7FFF)
  | .lkRead1 => (15, 0x3700, 0x7FFF)
  | .flrAll0 => (15, 0x3E00, 0x7FFF)
  | .flrAll1 => (15, 0x3200, 0x7FFF)
  | .flrAll2 => (15, 0x3600, 0x7FFF)
  | .flrAll3 => (15, 0x3700, 0x7FFF)
  | .sigEnter => (15, 0x2308, 0x7FFF)
  | .sigRead0 => (15, 0x3200, 0x7FFF)
  | .sigRead1 => (15, 0x3300, 0x7FFF)
  | .calEnter => (15, 0x2308, 0x7FFF)
  | .calRead0 => (15, 0x3600, 0x7FFF)
  | .calRead1 => (15, 0x3700, 0x7FFF)
  | .nop0 => (15, 0x2300, 0x7FFF)
  | .nop1 => (15, 0x3300, 0x7FFF)

/-- The encoding of `i` has its row's width and, under the row's mask, the row's match. -/
def Statement (i : Instr) : Prop :=
  (frameBits (encode i)).1 = (row i).1 ∧ (frameBits (encode i)).2 &&& (row i).2.2 = (row i).2.1

theorem create : Statement .create := ⟨rfl, rfl⟩

theorem writeIr (w : Nat) (v : Nat) : Statement (.writeIr w v) :=
  ⟨rfl, by simp [frameBits, row, encode]⟩

theorem writeDr (w : Nat) (v : Nat) : Statement (.writeDr w v) :=
  ⟨rfl, by simp [frameBits, row, encode]⟩

theorem ensureIr (d : Nat) : Statement (.ensureIr d) :=
  ⟨rfl, by simp [frameBits, row, encode]⟩

theorem invalidateIr : Statement .invalidateIr := ⟨rfl, rfl⟩

theorem runScript (words : List Nat) : Statement (.runScript words) :=
  ⟨rfl, by simp [frameBits, row, encode]⟩

theorem enterProg : Statement .enterProg := ⟨rfl, rfl⟩

theorem exitProg : Statement .exitProg := ⟨rfl, rfl⟩

theorem chipErase : Statement .chipErase := ⟨rfl, rfl⟩

theorem flashPageWrite (p : Nat) (data : List Nat) : Statement (.flashPageWrite p data) :=
  ⟨rfl, by simp [frameBits, row, encode]⟩

theorem flashPageRead (p : Nat) : Statement (.flashPageRead p) :=
  ⟨rfl, by simp [frameBits, row, encode]⟩

theorem eepromWrite (a : Nat) (d : Nat) : Statement (.eepromWrite a d) :=
  ⟨rfl, by simp [frameBits, row, encode]⟩

theorem eepromRead (a : Nat) : Statement (.eepromRead a) :=
  ⟨rfl, by simp [frameBits, row, encode]⟩

theorem fuseHighWrite (d : Nat) : Statement (.fuseHighWrite d) :=
  ⟨rfl, by simp [frameBits, row, encode]⟩

theorem fuseLowWrite (d : Nat) : Statement (.fuseLowWrite d) :=
  ⟨rfl, by simp [frameBits, row, encode]⟩

theorem lockWrite (d : Nat) : Statement (.lockWrite d) :=
  ⟨rfl, by simp [frameBits, row, encode]⟩

theorem fuseHighRead : Statement .fuseHighRead := ⟨rfl, rfl⟩

theorem fuseLowRead : Statement .fuseLowRead := ⟨rfl, rfl⟩

theorem lockRead : Statement .lockRead := ⟨rfl, rfl⟩

theorem fusesLockRead : Statement .fusesLockRead := ⟨rfl, rfl⟩

theorem signatureRead (idx : Nat) : Statement (.signatureRead idx) :=
  ⟨rfl, by simp [frameBits, row, encode]⟩

theorem calibrationRead (idx : Nat) : Statement (.calibrationRead idx) :=
  ⟨rfl, by simp [frameBits, row, encode]⟩

theorem readFlashRange (b : Nat) (count : Nat) : Statement (.readFlashRange b count) :=
  ⟨rfl, by simp [frameBits, row, encode]⟩

theorem readStatus : Statement .readStatus := ⟨rfl, rfl⟩

theorem irAvrReset : Statement .irAvrReset := ⟨rfl, rfl⟩

theorem irProgEnable : Statement .irProgEnable := ⟨rfl, rfl⟩

theorem irProgCommands : Statement .irProgCommands := ⟨rfl, rfl⟩

theorem ceSeq0 : Statement .ceSeq0 := ⟨rfl, rfl⟩

theorem ceSeq1 : Statement .ceSeq1 := ⟨rfl, rfl⟩

theorem ceSeq2 : Statement .ceSeq2 := ⟨rfl, rfl⟩

theorem ceSeq3 : Statement .ceSeq3 := ⟨rfl, rfl⟩

theorem cePoll : Statement .cePoll := ⟨rfl, rfl⟩

theorem fwEnter : Statement .fwEnter := ⟨rfl, rfl⟩

theorem addrHi (a : Byte) : Statement (.addrHi a) := by
  refine ⟨rfl, ?_⟩
  revert a
  decide

theorem addrLo (b : Byte) : Statement (.addrLo b) := by
  refine ⟨rfl, ?_⟩
  revert b
  decide

theorem dataLo (d : Byte) : Statement (.dataLo d) := by
  refine ⟨rfl, ?_⟩
  revert d
  decide

theorem dataHi (d : Byte) : Statement (.dataHi d) := by
  refine ⟨rfl, ?_⟩
  revert d
  decide

theorem latch0 : Statement .latch0 := ⟨rfl, rfl⟩

theorem latch1 : Statement .latch1 := ⟨rfl, rfl⟩

theorem latch2 : Statement .latch2 := ⟨rfl, rfl⟩

theorem fwWrite0 : Statement .fwWrite0 := ⟨rfl, rfl⟩

theorem fwWrite1 : Statement .fwWrite1 := ⟨rfl, rfl⟩

theorem fwWrite2 : Statement .fwWrite2 := ⟨rfl, rfl⟩

theorem fwWrite3 : Statement .fwWrite3 := ⟨rfl, rfl⟩

theorem fwPoll : Statement .fwPoll := ⟨rfl, rfl⟩

theorem frEnter : Statement .frEnter := ⟨rfl, rfl⟩

theorem frRead0 : Statement .frRead0 := ⟨rfl, rfl⟩

theorem frRead1 : Statement .frRead1 := ⟨rfl, rfl⟩

theorem frRead2 : Statement .frRead2 := ⟨rfl, rfl⟩

theorem ewEnter : Statement .ewEnter := ⟨rfl, rfl⟩

theorem ewWrite0 : Statement .ewWrite0 := ⟨rfl, rfl⟩

theorem ewWrite1 : Statement .ewWrite1 := ⟨rfl, rfl⟩

theorem ewWrite2 : Statement .ewWrite2 := ⟨rfl, rfl⟩

theorem ewWrite3 : Statement .ewWrite3 := ⟨rfl, rfl⟩

theorem ewPoll : Statement .ewPoll := ⟨rfl, rfl⟩

theorem erEnter : Statement .erEnter := ⟨rfl, rfl⟩

theorem erRead0 (b : Byte) : Statement (.erRead0 b) := by
  refine ⟨rfl, ?_⟩
  revert b
  decide

theorem erRead1 : Statement .erRead1 := ⟨rfl, rfl⟩

theorem erRead2 : Statement .erRead2 := ⟨rfl, rfl⟩

theorem fuEnter : Statement .fuEnter := ⟨rfl, rfl⟩

theorem fuhWrite0 : Statement .fuhWrite0 := ⟨rfl, rfl⟩

theorem fuhWrite1 : Statement .fuhWrite1 := ⟨rfl, rfl⟩

theorem fuhWrite2 : Statement .fuhWrite2 := ⟨rfl, rfl⟩

theorem fuhWrite3 : Statement .fuhWrite3 := ⟨rfl, rfl⟩

theorem fuhPoll : Statement .fuhPoll := ⟨rfl, rfl⟩

theorem fulWrite0 : Statement .fulWrite0 := ⟨rfl, rfl⟩

theorem fulWrite1 : Statement .fulWrite1 := ⟨rfl, rfl⟩

theorem fulWrite2 : Statement .fulWrite2 := ⟨rfl, rfl⟩

theorem fulWrite3 : Statement .fulWrite3 := ⟨rfl, rfl⟩

theorem fulPoll : Statement .fulPoll := ⟨rfl, rfl⟩

theorem lkEnter : Statement .lkEnter := ⟨rfl, rfl⟩

theorem lkData (d : BitVec 6) : Statement (.lkData d) := by
  refine ⟨rfl, ?_⟩
  revert d
  decide

theorem lkWrite0 : Statement .lkWrite0 := ⟨rfl, rfl⟩

theorem lkWrite1 : Statement .lkWrite1 := ⟨rfl, rfl⟩

theorem lkWrite2 : Statement .lkWrite2 := ⟨rfl, rfl⟩

theorem lkWrite3 : Statement .lkWrite3 := ⟨rfl, rfl⟩

theorem lkPoll : Statement .lkPoll := ⟨rfl, rfl⟩

theorem flrEnter : Statement .flrEnter := ⟨rfl, rfl⟩

theorem fuhRead0 : Statement .fuhRead0 := ⟨rfl, rfl⟩

theorem fuhRead1 : Statement .fuhRead1 := ⟨rfl, rfl⟩

theorem fulRead0 : Statement .fulRead0 := ⟨rfl, rfl⟩

theorem fulRead1 : Statement .fulRead1 := ⟨rfl, rfl⟩

theorem lkRead0 : Statement .lkRead0 := ⟨rfl, rfl⟩

theorem lkRead1 : Statement .lkRead1 := ⟨rfl, rfl⟩

theorem flrAll0 : Statement .flrAll0 := ⟨rfl, rfl⟩

theorem flrAll1 : Statement .flrAll1 := ⟨rfl, rfl⟩

theorem flrAll2 : Statement .flrAll2 := ⟨rfl, rfl⟩

theorem flrAll3 : Statement .flrAll3 := ⟨rfl, rfl⟩

theorem sigEnter : Statement .sigEnter := ⟨rfl, rfl⟩

theorem sigRead0 : Statement .sigRead0 := ⟨rfl, rfl⟩

theorem sigRead1 : Statement .sigRead1 := ⟨rfl, rfl⟩

theorem calEnter : Statement .calEnter := ⟨rfl, rfl⟩

theorem calRead0 : Statement .calRead0 := ⟨rfl, rfl⟩

theorem calRead1 : Statement .calRead1 := ⟨rfl, rfl⟩

theorem nop0 : Statement .nop0 := ⟨rfl, rfl⟩

theorem nop1 : Statement .nop1 := ⟨rfl, rfl⟩

end Sys2Proof.Laws.EncodesAsItsRow
end

