-- ==== Sys2Proof/Laws/Step.lean ====
section
/-! SUPPORT. What a step can do, said once, and what every instruction keeps. -/

namespace Sys2Proof.Machine

/-- Every instruction is a run from its acceptance to its end, and the run keeps a predicate that its
scans, the controller's moves and a new DeviceHandle keep. -/
theorem exec_run {I : State → Prop} (hI : OpClosed I) (hpm : ∀ pm s, I s → I (setPm pm s))
    (hd : ∀ s, TapFits s → I s → I { s with device := true }) (i : Instr) {s : State}
    (h : I (accept i s)) : ∃ r : Run OkData, exec i s = .next (finish r) ∧ r.Keeps I := by
  cases i
  case create => exact ⟨_, rfl, (createHandle_keeps hd h).noData⟩
  case writeIr => exact ⟨_, rfl, (writeInstruction_keeps hI _ _ h).noData⟩
  case writeDr => exact ⟨_, rfl, (writeData_keeps hI.toScanClosed _ _ h).andThenOk⟩
  case ensureIr => exact ⟨_, rfl, (ensureInstruction_keeps hI _ h).noData⟩
  case invalidateIr => exact ⟨.ok .empty (invalidateCache (accept .invalidateIr s)), rfl, hI.forget _ h⟩
  case runScript => exact ⟨_, rfl, runScriptOperation_keeps hI.toScanClosed _ h⟩
  case enterProg => exact ⟨_, rfl, (enterProgrammingMode_keeps hI hpm h).noData⟩
  case exitProg => exact ⟨_, rfl, (exitProgrammingMode_keeps hI hpm h).noData⟩
  case readFlashRange => exact ⟨_, rfl, readFlashRange_keeps hI hpm _ _ h⟩
  case readStatus => exact ⟨.ok _ (accept .readStatus s), rfl, h⟩
  case irAvrReset | irProgEnable | irProgCommands =>
    exact ⟨_, rfl, (writeInstruction_keeps hI _ _ h).noData⟩
  all_goals first
    | exact ⟨_, rfl, writeOperation_keeps hI hpm _ _ _ h⟩
    | exact ⟨_, rfl, readOperation_keeps hI hpm _ _ _ h⟩
    | exact ⟨_, rfl, shiftWord_keeps hI.toScanClosed _ h⟩

/-- What holds before an instruction and is kept by its run and by its end holds after it. -/
theorem exec_keeps {I : State → Prop} (hI : OpClosed I) (hpm : ∀ pm s, I s → I (setPm pm s))
    (hd : ∀ s, TapFits s → I s → I { s with device := true })
    (hc : ∀ res s, I s → I (complete res s)) (i : Instr) {s t : State} (h : I (accept i s))
    (ht : exec i s = .next t) : I t := by
  obtain ⟨r, he, hr⟩ := exec_run hI hpm hd i h
  rw [he] at ht
  cases ht
  exact hr.finish hc

/-- What a step that answers a next state did: the block idled, was launched again, forgot its cache,
rejected an op code, or ran an instruction. -/
theorem step_cases {s t : State} (h : step s = .next t) :
    configOk s.cfg = true ∧ ((s.port = [] ∧ s.active = false ∧ t = s) ∨ (s.port ≠ [] ∧
      (t = relaunch s.takeInput ∨ (s.active = false ∧ (t = adapterReset s.takeInput ∨
        (∃ op, t = rejectOp op s.takeInput) ∨ ∃ i, exec i s.takeInput = .next t))))) := by
  unfold step at h
  split at h
  · cases h
  next hc =>
    refine ⟨by simpa using hc, ?_⟩
    split at h
    next hp => 
      split at h
      · cases h
      · cases h; left; exact ⟨hp, by simp_all, rfl⟩
    next hp => cases h; right; exact ⟨by simp [hp], .inl rfl⟩
    next input rest _ hp =>
      right
      refine ⟨by simp [hp], .inr ?_⟩
      split at h
      · cases h
      next ha =>
        refine ⟨by simpa using ha, ?_⟩
        cases input with
        | frame f => 
          simp only [takeStep, runDecoded] at h
          split at h
          · exact .inr (.inr ⟨_, h⟩)
          · cases h; exact .inr (.inl ⟨_, rfl⟩)
          · cases h
          · cases h
          · cases h
        | adapterReset => cases h; exact .inl rfl
        | blockReset => simp_all

/-- A configuration that is run has whole pages. -/
theorem configOk_pages {c : Config} (h : configOk c = true) : c.pageWords ∣ c.flashWords := by
  simp [configOk] at h
  exact Nat.dvd_of_mod_eq_zero (by tauto)

/-- A configuration that is run has IR codes of 4 bits. -/
theorem configOk_codes {c : Config} (h : configOk c = true) :
    c.irAvrReset < 16 ∧ c.irProgEnable < 16 ∧ c.irProgCommands < 16 := by
  simp only [configOk, irWidth, Bool.and_eq_true] at h
  obtain ⟨-, -, -, -, -, -, -, -, -, h1, h2, h3, -⟩ := h
  exact ⟨of_decide_eq_true h1, of_decide_eq_true h2, of_decide_eq_true h3⟩

end Sys2Proof.Machine
end

