-- ==== Sys2Proof/Laws/Trace.lean ====
section
/-! SUPPORT. What the scan trace of a run says: which answers the environment gave, what the cache holds
after them, and how a run ends that waits for an answer. One lemma for each shared operation. -/

namespace Sys2Proof.Machine

/-- The answers to scans and to one scan after them. -/
theorem answerScans_concat {reqs : List Scan} {req : Scan} :
    ∀ {s m t : State} {as : List Answer} {a : Answer}, answerScans reqs s = (as, m) →
    answerScan req m = (a, t) → answerScans (reqs ++ [req]) s = (as ++ [a], t) := by
  induction reqs with
  | nil => intro s m t as a h1 h2; cases h1; simp only [List.nil_append, answerScans, h2]
  | cons r reqs ih =>
    intro s m t as a h1 h2
    obtain ⟨a', as', m', h3, h4, rfl⟩ := answerScans_cons h1
    exact answerScans_of_cons h3 (ih h4 h2)

/-- What no part of an operation changes: the configuration, the handle, which operation runs, its missing
result; and the position counts the trace (10_state R28). -/
structure Undisturbed (s u : State) : Prop where
  cfg : u.cfg = s.cfg
  dev : u.device = s.device
  pos : u.pos = u.trace.length
  run : u.running = s.running
  res : u.result = s.result

/-- The operation that started in `s` goes on at `u`: every scan of its trace was answered `Ok`, and the
cache is as those scans left it. -/
structure Going (s u : State) : Prop extends Undisturbed s u where
  ans : ∃ cs, answerScans u.trace s = (oks cs, withEnv u s)
  cache : u.irCache = cacheAfter s.irCache u.trace

/-- The operation that started in `s` is over at `u`: no scan of its trace was left without an answer. -/
def Over (s u : State) : Prop :=
  ∃ as, Answer.silent ∉ as ∧ answerScans u.trace s = (as, withEnv u s)

/-- The operation that started in `s` is stuck at `u`: the last scan of its trace has no answer, every scan
before it was answered `Ok`, and the cache is as those left it (60_exceptions R347). -/
structure Waiting (s u : State) : Prop extends Undisturbed s u where
  ans : ∃ cs, answerScans u.trace s = (oks cs ++ [.silent], withEnv u s)
  cache : u.irCache = cacheAfter s.irCache u.trace.dropLast

/-- A part of the operation that started in `s`: it goes on, is over with an error, or is stuck. -/
abbrev Traced {α : Type} (s : State) (r : Run α) : Prop :=
  r.Meets (fun _ u => Going s u) (fun _ _ u => Over s u) (Waiting s)

theorem Going.over {s u : State} (h : Going s u) : Over s u := by
  obtain ⟨cs, hc⟩ := h.ans
  exact ⟨_, by simp [oks], hc⟩

theorem scan_traced {s u : State} {req : Scan} (h : Going s u) :
    (scan req u).Meets
      (fun _ v => Undisturbed s v ∧ v.trace = u.trace ++ [req] ∧ v.irCache = u.irCache ∧
        ∃ cs, answerScans v.trace s = (oks cs, withEnv v s))
      (fun _ _ v => Over s v) (Waiting s) := by
  obtain ⟨cs, hc⟩ := h.ans
  rcases ha : answerScan req (withEnv u s) with ⟨a, t⟩
  have hu : answerScan req u = (a, withEnv t u) := answerScan_of ha h.cfg rfl rfl
  have hf := answerScan_frame ha
  have happ := answerScans_concat hc ha
  rw [scan_eq hu]
  have e : withEnv (issue req (withEnv t u)) s = t := by rw [hf]; rfl
  have hfix : Undisturbed s (issue req (withEnv t u)) :=
    ⟨h.cfg, h.dev, by simp [withEnv, h.pos], h.run, h.res⟩
  cases a with
  | ok c =>
    refine ⟨hfix, rfl, rfl, cs ++ [c], ?_⟩
    rw [e, show oks (cs ++ [c]) = oks cs ++ [.ok c] by simp [oks]]
    exact happ
  | err x => exact ⟨oks cs ++ [.err x], by simp [oks], by rw [e]; exact happ⟩
  | silent =>
    refine ⟨hfix, ⟨cs, by rw [e]; exact happ⟩, ?_⟩
    show u.irCache = cacheAfter s.irCache (u.trace ++ [req]).dropLast
    rw [List.dropLast_concat]; exact h.cache

theorem writeInstruction_traced {s u : State} {w v : Nat} (h : Going s u) :
    Traced s (writeInstruction w v u) := by
  unfold writeInstruction
  split
  · exact h.over
  split
  · exact h.over
  split
  · exact h.over
  have hs := scan_traced (req := .ir w (trunc w v)) h
  split
  · next heq =>
    rw [heq] at hs
    obtain ⟨hf, ht, -, ha⟩ := hs
    refine ⟨⟨hf.1, hf.2, hf.3, hf.4, hf.5⟩, ha, ?_⟩
    simp [ht, cacheAfter]
  · next heq => rw [heq] at hs; exact hs
  · next heq => rw [heq] at hs; exact hs

theorem writeData_traced {s u : State} {w v : Nat} (h : Going s u) :
    Traced s (writeData w v u) := by
  unfold writeData
  split
  · exact h.over
  split
  · exact h.over
  refine (scan_traced h).mono ?_ (fun _ _ _ h => h) (fun _ h => h)
  rintro _ x ⟨hf, ht, hc, ha⟩
  exact ⟨hf, ha, by rw [hc, ht, h.cache]; simp [cacheAfter]⟩

theorem ensureInstruction_traced {s u : State} {d : Nat} (h : Going s u) :
    Traced s (ensureInstruction d u) := by
  unfold ensureInstruction
  split
  · exact h
  · exact writeInstruction_traced h

theorem Going.caps {s u : State} (h : Going s u) (cs : List CmdWord) : Going s { u with caps := cs } :=
  ⟨⟨h.cfg, h.dev, h.pos, h.run, h.res⟩, h.ans, h.cache⟩

theorem Going.polls {s u : State} (h : Going s u) (n : Nat) : Going s { u with polls := n } :=
  ⟨⟨h.cfg, h.dev, h.pos, h.run, h.res⟩, h.ans, h.cache⟩

theorem Going.pm {s u : State} (h : Going s u) (pm : Pm) : Going s (setPm pm u) :=
  ⟨⟨h.cfg, h.dev, h.pos, h.run, h.res⟩, h.ans, h.cache⟩

theorem runWords_traced {s : State} (ws : List Nat) : ∀ {u : State}, Going s u → Traced s (runWords ws u) := by
  induction ws with
  | nil => intro u h; exact h
  | cons w ws ih => intro u h; exact (writeData_traced h).andThen fun c x hx => ih (hx.caps _)

theorem runCommandScript_traced {s u : State} (ws : List Nat) (h : Going s u) :
    Traced s (runCommandScript ws u) :=
  Run.Meets.andThen (Run.Meets.record (runWords_traced ws (h.caps _)) fun _ _ _ h => h) fun _ _ h => h

theorem runScriptInside_traced {s u : State} (ws : List CmdWord) (h : Going s u) :
    Traced s (runScriptInside ws u) :=
  Run.Meets.record (runCommandScript_traced _ h) fun _ _ _ h => h

theorem runScriptOperation_traced {s u : State} (ws : List Nat) (h : Going s u) :
    Traced s (runScriptOperation ws u) :=
  Run.Meets.andThen (runCommandScript_traced _ h) fun _ _ h => h

theorem pollLoop_traced {s : State} (pw : CmdWord) (n : Nat) : ∀ {u : State}, Going s u → Traced s (pollLoop pw n u) := by
  induction n with
  | zero => intro u h; exact h.over
  | succ n ih =>
    intro u h
    refine Run.Meets.andThen (runScriptInside_traced _ h) fun cs x hx => ?_
    dsimp only
    split
    · exact ih (hx.polls _)
    · exact hx.polls _

theorem busyPoll_traced {s u : State} (pw : CmdWord) (h : Going s u) : Traced s (busyPoll pw u) :=
  Run.Meets.record (pollLoop_traced _ _ (h.polls _)) fun _ _ _ h => h

theorem onError_traced {α : Type} {s : State} {r : Run α} (h : Traced s r) :
    Traced s (r.onError toError) :=
  Run.Meets.onError h fun _ _ _ h => h

theorem noData_traced {α : Type} {s : State} {r : Run α} (h : Traced s r) : Traced s r.noData :=
  Run.Meets.noData h fun _ _ h => h

theorem enterProgrammingMode_traced {s u : State} (h : Going s u) :
    Traced s (enterProgrammingMode u) := by
  unfold enterProgrammingMode
  split
  · exact h.over
  refine onError_traced ?_
  refine Run.Meets.andThen (ensureInstruction_traced h) fun _ _ h => ?_
  refine Run.Meets.andThen (writeData_traced h) fun _ _ h => ?_
  refine Run.Meets.andThen (ensureInstruction_traced (h.pm _)) fun _ _ h => ?_
  refine Run.Meets.andThen (writeData_traced h) fun _ _ h => ?_
  exact Run.Meets.andThen (ensureInstruction_traced (h.pm _)) fun _ _ h => h.pm _

theorem exitProgrammingMode_traced {s u : State} (h : Going s u) :
    Traced s (exitProgrammingMode u) := by
  unfold exitProgrammingMode
  split
  · exact h.over
  refine onError_traced ?_
  refine Run.Meets.andThen (ensureInstruction_traced h) fun _ _ h => ?_
  refine Run.Meets.andThen (runScriptInside_traced _ h) fun _ _ h => ?_
  refine Run.Meets.andThen (ensureInstruction_traced h) fun _ _ h => ?_
  refine Run.Meets.andThen (writeData_traced h) fun _ _ h => ?_
  refine Run.Meets.andThen (ensureInstruction_traced (h.pm _)) fun _ _ h => ?_
  exact Run.Meets.andThen (writeData_traced h) fun _ _ h => (h.pm _).pm _

theorem scriptPhase_traced {s u : State} (words : List CmdWord) (h : Going s u) : Traced s (scriptPhase words u) :=
  Run.Meets.andThen (ensureInstruction_traced h) fun _ _ h => runScriptInside_traced _ h

theorem readOperation_traced {s u : State} (valid : Bool) (words : List CmdWord) (x : List CmdWord → List Byte)
    (h : Going s u) : Traced s (readOperation valid words x u) := by
  unfold readOperation
  split
  · exact h.over
  split
  · exact h.over
  exact Run.Meets.andThen (onError_traced (scriptPhase_traced _ h)) fun _ _ h => h

theorem writeOperation_traced {s u : State} (valid : Bool) (words : List CmdWord) (x : CmdWord)
    (h : Going s u) : Traced s (writeOperation valid words x u) := by
  unfold writeOperation
  split
  · exact h.over
  split
  · exact h.over
  refine noData_traced (onError_traced ?_)
  exact Run.Meets.andThen (scriptPhase_traced _ h) fun _ _ h => busyPoll_traced _ h

theorem readPages_traced {s : State} (left : Nat) :
    ∀ (p : Nat) (buf : List Byte) {u : State}, Going s u → Traced s (readPages left p buf u) := by
  induction left with
  | zero => intro p buf u h; exact h
  | succ left ih =>
    intro p buf u h
    refine Run.Meets.andThen (P := fun _ u => Going s u) ?_ fun _ _ h => ih _ _ h
    exact Run.Meets.andThen (onError_traced (scriptPhase_traced _ h)) fun _ _ h => h

theorem readFlashRange_traced {s u : State} (b count : Nat) (h : Going s u) :
    Traced s (readFlashRange b count u) := by
  unfold readFlashRange
  split
  · exact h.over
  split
  · exact h.over
  split
  · exact h.over
  split
  · exact h
  refine Run.Meets.andThen (enterProgrammingMode_traced h) fun _ _ h => ?_
  refine Run.Meets.andThen (readPages_traced _ _ _ h) fun _ _ h => ?_
  exact Run.Meets.andThen (exitProgrammingMode_traced h) fun _ _ h => h
/-- An operation starts with nothing scanned. -/
theorem accept_going (i : Instr) (s : State) : Going (accept i s) (accept i s) :=
  ⟨⟨rfl, rfl, rfl, rfl, rfl⟩, ⟨[], rfl⟩, rfl⟩

/-- A whole operation that started in `s`: it is over or stuck. -/
abbrev TracedEnd {α : Type} (s : State) (r : Run α) : Prop :=
  r.Meets (fun _ u => Over s u) (fun _ _ u => Over s u) (Waiting s)

theorem traced_end {α : Type} {s : State} {r : Run α} (h : Traced s r) : TracedEnd s r :=
  Run.Meets.mono h (fun _ _ h => h.over) (fun _ _ _ h => h) fun _ h => h

/-- Every instruction is a run from its acceptance that is over or stuck. -/
theorem exec_traced (i : Instr) (s : State) :
    ∃ r : Run OkData, exec i s = .next (finish r) ∧ TracedEnd (accept i s) r := by
  have h := accept_going i s
  cases i
  case create =>
    refine ⟨_, rfl, Run.Meets.noData (P := fun _ u => Over _ u) ?_ (fun _ _ h => h)⟩
    unfold createHandle
    split
    · exact h.over
    split
    · exact h.over
    exact h.over
  case writeIr => exact ⟨_, rfl, traced_end (noData_traced (writeInstruction_traced h))⟩
  case writeDr => exact ⟨_, rfl, traced_end (Run.Meets.andThen (writeData_traced h) fun _ _ h => h)⟩
  case ensureIr => exact ⟨_, rfl, traced_end (noData_traced (ensureInstruction_traced h))⟩
  case invalidateIr => exact ⟨.ok .empty (invalidateCache (accept .invalidateIr s)), rfl, h.over⟩
  case runScript => exact ⟨_, rfl, traced_end (runScriptOperation_traced _ h)⟩
  case enterProg => exact ⟨_, rfl, traced_end (noData_traced (enterProgrammingMode_traced h))⟩
  case exitProg => exact ⟨_, rfl, traced_end (noData_traced (exitProgrammingMode_traced h))⟩
  case readFlashRange => exact ⟨_, rfl, traced_end (readFlashRange_traced _ _ h)⟩
  case readStatus => exact ⟨.ok _ (accept .readStatus s), rfl, h.over⟩
  case irAvrReset | irProgEnable | irProgCommands =>
    exact ⟨_, rfl, traced_end (noData_traced (writeInstruction_traced h))⟩
  all_goals first
    | exact ⟨_, rfl, traced_end (writeOperation_traced _ _ _ h)⟩
    | exact ⟨_, rfl, traced_end (readOperation_traced _ _ _ h)⟩
    | exact ⟨_, rfl, traced_end (runScriptOperation_traced _ h)⟩

end Sys2Proof.Machine
end

