-- ==== Sys2Proof/Machine/Assembler.lean ====
section
/-! DEFINITION. The assembler text of test programs (30_encoding R95, R96; log 28): one host operation a
line, `MNEMONIC arg, arg ; comment`, to the frame of the operation. A line is its characters. -/

namespace Sys2Proof.Machine

/-! ### Tokens -/

/-- The tokens of a line. -/
inductive Token where
  /-- A mnemonic, a script name or a number. -/
  | word (cs : List Char)
  | comma
  | at
  | openByteList
  | closeByteList
  | openWordList
  | closeWordList
  | openParen
  | closeParen
deriving DecidableEq, Repr

/-- The token a punctuation mark stands for; the byte-list marks are characters 123 and 125. -/
def punctuation (c : Char) : Option Token :=
  if c = ',' then some .comma
  else if c = '@' then some .at
  else if c.toNat = 123 then some .openByteList
  else if c.toNat = 125 then some .closeByteList
  else if c = '[' then some .openWordList
  else if c = ']' then some .closeWordList
  else if c = '(' then some .openParen
  else if c = ')' then some .closeParen
  else none

/-- A word read so far as a token, in front of the tokens that follow. -/
def flushWord (cs : List Char) (rest : List Token) : List Token :=
  if cs = [] then rest else .word cs :: rest

/-- The tokens of a line, its comment left out (30_encoding R95). -/
def tokens : List Char → List Char → List Token
  | [], cur => flushWord cur []
  | c :: cs, cur =>
    if c = ';' then flushWord cur []
    else if c = ' ' ∨ c = '\t' then flushWord cur (tokens cs [])
    else
      match punctuation c with
      | some t => flushWord cur (t :: tokens cs [])
      | none => tokens cs (cur ++ [c])

/-! ### Numbers (30_encoding R95) -/

/-- A digit of a base up to 16. -/
def digitValue (base : Nat) (c : Char) : Option Nat :=
  let n := c.toNat
  let v :=
    if 48 ≤ n ∧ n ≤ 57 then n - 48
    else if 65 ≤ n ∧ n ≤ 70 then n - 55
    else if 97 ≤ n ∧ n ≤ 102 then n - 87
    else 16
  if v < base then some v else none

/-- Digits after a value read so far. -/
def digitsValue (base : Nat) : List Char → Nat → Option Nat
  | [], acc => some acc
  | c :: cs, acc =>
    match digitValue base c with
    | some v => digitsValue base cs (acc * base + v)
    | none => none

/-- A number: `0x` hex, a command word `ooooooo_bbbbbbbb`, or decimal. -/
def number (cs : List Char) : Option Nat :=
  match cs with
  | [] => none
  | '0' :: 'x' :: [] => none
  | '0' :: 'x' :: hex => digitsValue 16 hex 0
  | _ =>
    if cs.length = 16 ∧ cs.getD 7 '0' = '_' then digitsValue 2 (cs.eraseIdx 7) 0
    else digitsValue 10 cs 0

/-! ### Arguments -/

/-- The kinds of argument text. -/
inductive ArgText where
  | number (n : Nat)
  | byteList (ns : List Nat)
  | wordList (ns : List Nat)
deriving DecidableEq, Repr

/-- The numbers of a list and the tokens after its closing mark. -/
def listItems (close : Token) : List Token → List Nat → Option (List Nat × List Token)
  | .word w :: .comma :: rest, acc =>
    match number w with
    | some n => listItems close rest (acc ++ [n])
    | none => none
  | .word w :: t :: rest, acc =>
    match number w with
    | some n => if t = close then some (acc ++ [n], rest) else none
    | none => none
  | _, _ => none

/-- A list that may be empty. -/
def listText (close : Token) (ts : List Token) : Option (List Nat × List Token) :=
  match ts with
  | t :: rest => if t = close then some ([], rest) else listItems close ts []
  | [] => none

/-- One argument and the tokens after it. -/
def argText : List Token → Option (ArgText × List Token)
  | .word w :: rest => (number w).map fun n => (.number n, rest)
  | .openByteList :: rest => (listText .closeByteList rest).map fun r => (.byteList r.1, r.2)
  | .openWordList :: rest => (listText .closeWordList rest).map fun r => (.wordList r.1, r.2)
  | _ => none

/-- The arguments of a line, separated by commas; the first number bounds how many. -/
def argTexts : Nat → List Token → Option (List ArgText)
  | 0, _ => none
  | _ + 1, [] => some []
  | fuel + 1, ts =>
    match argText ts with
    | some (a, []) => some [a]
    | some (a, .comma :: rest) =>
      if rest = [] then none else (argTexts fuel rest).map fun as => a :: as
    | _ => none

/-! ### Lines -/

/-- The op code of a mnemonic (30_encoding R80). -/
def opCode (name : List Char) : Option Byte :=
  if name = "CREATE".toList then some 0x01
  else if name = "WRITE_IR".toList then some 0x02
  else if name = "WRITE_DR".toList then some 0x03
  else if name = "ENSURE_IR".toList then some 0x04
  else if name = "INVALIDATE_IR".toList then some 0x05
  else if name = "RUN_SCRIPT".toList then some 0x06
  else if name = "ENTER_PROG".toList then some 0x07
  else if name = "EXIT_PROG".toList then some 0x08
  else if name = "CHIP_ERASE".toList then some 0x09
  else if name = "FLASH_PAGE_WRITE".toList then some 0x0A
  else if name = "FLASH_PAGE_READ".toList then some 0x0B
  else if name = "EEPROM_WRITE".toList then some 0x0C
  else if name = "EEPROM_READ".toList then some 0x0D
  else if name = "FUSE_HIGH_WRITE".toList then some 0x0E
  else if name = "FUSE_LOW_WRITE".toList then some 0x0F
  else if name = "LOCK_WRITE".toList then some 0x10
  else if name = "FUSE_HIGH_READ".toList then some 0x11
  else if name = "FUSE_LOW_READ".toList then some 0x12
  else if name = "LOCK_READ".toList then some 0x13
  else if name = "FUSES_LOCK_READ".toList then some 0x14
  else if name = "SIGNATURE_READ".toList then some 0x15
  else if name = "CALIBRATION_READ".toList then some 0x16
  else if name = "READ_FLASH_RANGE".toList then some 0x17
  else if name = "READ_STATUS".toList then some 0x18
  else none

/-- The script of a name (43_command_words R190). -/
def scriptNamed (name : List Char) : Option Script :=
  if name = "CE_SEQ".toList then some .ceSeq
  else if name = "CE_POLL".toList then some .cePoll
  else if name = "FW_ENTER".toList then some .fwEnter
  else if name = "ADDR_HI".toList then some .addrHi
  else if name = "ADDR_LO".toList then some .addrLo
  else if name = "DATA_LO".toList then some .dataLo
  else if name = "DATA_HI".toList then some .dataHi
  else if name = "LATCH".toList then some .latch
  else if name = "FW_WRITE".toList then some .fwWrite
  else if name = "FW_POLL".toList then some .fwPoll
  else if name = "FR_ENTER".toList then some .frEnter
  else if name = "FR_READ".toList then some .frRead
  else if name = "EW_ENTER".toList then some .ewEnter
  else if name = "EW_WRITE".toList then some .ewWrite
  else if name = "EW_POLL".toList then some .ewPoll
  else if name = "ER_ENTER".toList then some .erEnter
  else if name = "ER_READ".toList then some .erRead
  else if name = "FU_ENTER".toList then some .fuEnter
  else if name = "FUH_WRITE".toList then some .fuhWrite
  else if name = "FUH_POLL".toList then some .fuhPoll
  else if name = "FUL_WRITE".toList then some .fulWrite
  else if name = "FUL_POLL".toList then some .fulPoll
  else if name = "LK_ENTER".toList then some .lkEnter
  else if name = "LK_DATA".toList then some .lkData
  else if name = "LK_WRITE".toList then some .lkWrite
  else if name = "LK_POLL".toList then some .lkPoll
  else if name = "FLR_ENTER".toList then some .flrEnter
  else if name = "FUH_READ".toList then some .fuhRead
  else if name = "FUL_READ".toList then some .fulRead
  else if name = "LK_READ".toList then some .lkRead
  else if name = "FLR_ALL".toList then some .flrAll
  else if name = "SIG_ENTER".toList then some .sigEnter
  else if name = "SIG_READ".toList then some .sigRead
  else if name = "CAL_ENTER".toList then some .calEnter
  else if name = "CAL_READ".toList then some .calRead
  else if name = "NOP".toList then some .nop
  else none

/-- The frame argument of an argument text. Bytes and words keep their own marks: a byte list for
`FLASH_PAGE_WRITE`, a word list for `RUN_SCRIPT` (30_encoding R80, R95). -/
def frameArg (op : Byte) : ArgText → Option Arg
  | .number n => some (.nat n)
  | .byteList ns => if op = 0x0A then some (.list ns) else none
  | .wordList ns => if op = 0x06 then some (.list ns) else none

/-- All arguments of a line. -/
def frameArgs (op : Byte) : List ArgText → Option (List Arg)
  | [] => some []
  | a :: as =>
    match frameArg op a, frameArgs op as with
    | some x, some xs => some (x :: xs)
    | _, _ => none

/-- Whether a script has an operand letter (43_command_words R190). -/
def scriptTakesByte : Script → Bool
  | .addrHi => true
  | .addrLo => true
  | .dataLo => true
  | .dataHi => true
  | .erRead => true
  | .lkData => true
  | _ => false

/-- `@NAME` or `@NAME(arg)` (30_encoding R96). -/
def scriptFrame (cmd : Cmd) : List Token → Option Frame
  | [.at, .word name] =>
    match scriptNamed name with
    | some sc => if scriptTakesByte sc then none else some (encode (expandScript cmd 0 sc))
    | none => none
  | [.at, .word name, .openParen, .closeParen] =>
    match scriptNamed name with
    | some sc => if scriptTakesByte sc then none else some (encode (expandScript cmd 0 sc))
    | none => none
  | [.at, .word name, .openParen, .word arg, .closeParen] =>
    match scriptNamed name, number arg with
    | some sc, some n =>
      if scriptTakesByte sc ∧ n < 256 then some (encode (expandScript cmd (BitVec.ofNat 8 n) sc))
      else none
    | _, _ => none
  | _ => none

/-- One line: no operation for an empty line or a comment, else its frame. An unreadable line is none. -/
def assembleLine (cmd : Cmd) (line : List Char) : Option (Option Frame) :=
  match tokens line [] with
  | [] => some none
  | .word name :: rest =>
    match opCode name with
    | none => none
    | some op =>
      if op = 0x06 ∧ rest.head? = some .at then (scriptFrame cmd rest).map some
      else
        match argTexts (rest.length + 1) rest with
        | some as => (frameArgs op as).map fun args => some (.hostOp op args)
        | none => none
  | _ => none

/-- A program: one host operation a line, in order (30_encoding R95). -/
def assemble (cmd : Cmd) : List (List Char) → Option (List Frame)
  | [] => some []
  | line :: lines =>
    match assembleLine cmd line, assemble cmd lines with
    | some (some f), some fs => some (f :: fs)
    | some none, some fs => some fs
    | _, _ => none

end Sys2Proof.Machine
end

