-- ==== Sys2Proof/Tests/Slice0.lean ====
section
/-! SUPPORT. Tests. Expected values come from the spec: the encodings of 30_encoding and 43_command_words,
and the vectors of 95_test_vectors, the section named at each test. The witnesses at the end show, for each
statement with hypotheses, a concrete state and operands that meet them all. -/

namespace Sys2Proof.Tests

open Sys2Proof.Machine

/-! ### States for tests -/

/-- The configuration of 95_test_vectors with the small flash of its flash rows. -/
def small : Config :=
  { referenceConfig true 4 8 with flashWords := 8, pageWords := 2, eepromBytes := 1024 }

/-- The reference device after `ENTER_PROG`, and the block in its session. -/
def session : State :=
  { State.launch small (.reference [])
      { Device.initial 2 with ir := 5, reset := true, prog := true } with
    pm := .commandsActive, irCache := .known 5 }

/-- The block at rest over the reference device. -/
def idle : State := State.launch small (.reference []) (Device.initial 2)

/-- The block at rest with the first scan answered by a capture of ones. -/
def bound : State := State.launch small (.free [.ok 0xFFFF] 0) (Device.initial 2)

/-- The same in another configuration. -/
def under (c : Config) (link : Link) : State := State.launch c link (Device.initial 2)

/-- The state after an instruction. -/
def after (i : Instr) (s : State) : State :=
  match exec i s with
  | .next t => t
  | _ => s

/-- Trace, result, controller state and cache after an instruction, as 95_test_vectors tabulates them. -/
def shown (i : Instr) (s : State) : List Scan × Option Result × Pm × IrCache :=
  ((after i s).trace, (after i s).result, (after i s).pm, (after i s).irCache)

/-! ### Well-formed instructions -/

/-- A CommandWord has at most 16 bits (00_scope R14). -/
theorem test_ill_formed_script_refused : (Instr.runScript [0x2308, 0x10000]).wellFormed = false := by
  decide

theorem test_well_formed_script_accepted : (Instr.runScript [0x2308, 0xFFFF]).wellFormed = true := by
  decide

/-! ### Decoding -/

/-- The op codes of 30_encoding R80, written bit by bit. -/
theorem test_decode_host_operations : ∀ p ∈ ([
    (.hostOp 0b00000001 [], .create), (.hostOp 0b00000010 [.nat 4, .nat 21], .writeIr 4 21),
    (.hostOp 0b00000011 [.nat 32, .nat 7], .writeDr 32 7),
    (.hostOp 0b00000100 [.nat 28], .ensureIr 28), (.hostOp 0b00000101 [], .invalidateIr),
    (.hostOp 0b00000110 [.list [0x2308, 0x0300]], .runScript [0x2308, 0x0300]),
    (.hostOp 0b00000111 [], .enterProg), (.hostOp 0b00001000 [], .exitProg),
    (.hostOp 0b00001001 [], .chipErase),
    (.hostOp 0b00001010 [.nat 2, .list [0xDE, 0xAD]], .flashPageWrite 2 [0xDE, 0xAD]),
    (.hostOp 0b00001011 [.nat 3], .flashPageRead 3),
    (.hostOp 0b00001100 [.nat 0x1A5, .nat 0x5A], .eepromWrite 0x1A5 0x5A),
    (.hostOp 0b00001101 [.nat 0x1A5], .eepromRead 0x1A5),
    (.hostOp 0b00001110 [.nat 0xD9], .fuseHighWrite 0xD9),
    (.hostOp 0b00001111 [.nat 0xE2], .fuseLowWrite 0xE2),
    (.hostOp 0b00010000 [.nat 0xFC], .lockWrite 0xFC), (.hostOp 0b00010001 [], .fuseHighRead),
    (.hostOp 0b00010010 [], .fuseLowRead), (.hostOp 0b00010011 [], .lockRead),
    (.hostOp 0b00010100 [], .fusesLockRead), (.hostOp 0b00010101 [.nat 2], .signatureRead 2),
    (.hostOp 0b00010110 [.nat 3], .calibrationRead 3),
    (.hostOp 0b00010111 [.nat 5, .nat 9], .readFlashRange 5 9),
    (.hostOp 0b00011000 [], .readStatus)] : List (Frame × Instr)),
    decode p.1 = .instr p.2 := by decide

/-- The words of 30_encoding R83, written bit by bit, operands mixed. -/
theorem test_decode_ir_scans : ∀ p ∈ ([
    (.irScan 0b1100, .irAvrReset), (.irScan 0b0100, .irProgEnable),
    (.irScan 0b0101, .irProgCommands)] : List (Frame × Instr)),
    decode p.1 = .instr p.2 := by decide

/-- The words of 43_command_words R191, R192, written bit by bit, operands mixed. -/
theorem test_decode_chip_erase_words : ∀ p ∈ ([
    (.cmdWord .ceSeq 0 0b010001110000000, .ceSeq0),
    (.cmdWord .ceSeq 1 0b011000110000000, .ceSeq1),
    (.cmdWord .ceSeq 2 0b011001110000000, .ceSeq2),
    (.cmdWord .ceSeq 3 0b011001110000000, .ceSeq3),
    (.cmdWord .cePoll 0 0b011001110000000, .cePoll)] : List (Frame × Instr)),
    decode p.1 = .instr p.2 := by decide

/-- The words of 43_command_words R193 to R198, written bit by bit, operands mixed. -/
theorem test_decode_address_data_latch_words : ∀ p ∈ ([
    (.cmdWord .fwEnter 0 0b010001100010000, .fwEnter),
    (.cmdWord .addrHi 0 0b000011110100101, .addrHi 0b10100101),
    (.cmdWord .addrLo 0 0b000001110100101, .addrLo 0b10100101),
    (.cmdWord .dataLo 0 0b001001110100101, .dataLo 0b10100101),
    (.cmdWord .dataHi 0 0b001011110100101, .dataHi 0b10100101),
    (.cmdWord .latch 0 0b011011100000000, .latch0),
    (.cmdWord .latch 1 0b111011100000000, .latch1),
    (.cmdWord .latch 2 0b011011100000000, .latch2)] : List (Frame × Instr)),
    decode p.1 = .instr p.2 := by decide

/-- The words of 43_command_words R199 to R202, written bit by bit, operands mixed. -/
theorem test_decode_flash_words : ∀ p ∈ ([
    (.cmdWord .fwWrite 0 0b011011100000000, .fwWrite0),
    (.cmdWord .fwWrite 1 0b011010100000000, .fwWrite1),
    (.cmdWord .fwWrite 2 0b011011100000000, .fwWrite2),
    (.cmdWord .fwWrite 3 0b011011100000000, .fwWrite3),
    (.cmdWord .fwPoll 0 0b011011100000000, .fwPoll),
    (.cmdWord .frEnter 0 0b010001100000010, .frEnter),
    (.cmdWord .frRead 0 0b011001000000000, .frRead0),
    (.cmdWord .frRead 1 0b011011000000000, .frRead1),
    (.cmdWord .frRead 2 0b011011100000000, .frRead2)] : List (Frame × Instr)),
    decode p.1 = .instr p.2 := by decide

/-- The words of 43_command_words R203 to R207, written bit by bit, operands mixed. -/
theorem test_decode_eeprom_words : ∀ p ∈ ([
    (.cmdWord .ewEnter 0 0b010001100010001, .ewEnter),
    (.cmdWord .ewWrite 0 0b011001100000000, .ewWrite0),
    (.cmdWord .ewWrite 1 0b011000100000000, .ewWrite1),
    (.cmdWord .ewWrite 2 0b011001100000000, .ewWrite2),
    (.cmdWord .ewWrite 3 0b011001100000000, .ewWrite3),
    (.cmdWord .ewPoll 0 0b011001100000000, .ewPoll),
    (.cmdWord .erEnter 0 0b010001100000011, .erEnter),
    (.cmdWord .erRead 0 0b011001110100101, .erRead0 0b10100101),
    (.cmdWord .erRead 1 0b011001000000000, .erRead1),
    (.cmdWord .erRead 2 0b011001100000000, .erRead2)] : List (Frame × Instr)),
    decode p.1 = .instr p.2 := by decide

/-- The words of 43_command_words R208 to R216, written bit by bit, operands mixed. -/
theorem test_decode_fuse_lock_write_words : ∀ p ∈ ([
    (.cmdWord .fuEnter 0 0b010001101000000, .fuEnter),
    (.cmdWord .fuhWrite 0 0b011011100000000, .fuhWrite0),
    (.cmdWord .fuhWrite 1 0b011010100000000, .fuhWrite1),
    (.cmdWord .fuhWrite 2 0b011011100000000, .fuhWrite2),
    (.cmdWord .fuhWrite 3 0b011011100000000, .fuhWrite3),
    (.cmdWord .fuhPoll 0 0b011011100000000, .fuhPoll),
    (.cmdWord .fulWrite 0 0b011001100000000, .fulWrite0),
    (.cmdWord .fulWrite 1 0b011000100000000, .fulWrite1),
    (.cmdWord .fulWrite 2 0b011001100000000, .fulWrite2),
    (.cmdWord .fulWrite 3 0b011001100000000, .fulWrite3),
    (.cmdWord .fulPoll 0 0b011001100000000, .fulPoll),
    (.cmdWord .lkEnter 0 0b010001100100000, .lkEnter),
    (.cmdWord .lkData 0 0b001001111100110, .lkData 0b100110),
    (.cmdWord .lkWrite 0 0b011001100000000, .lkWrite0),
    (.cmdWord .lkWrite 1 0b011000100000000, .lkWrite1),
    (.cmdWord .lkWrite 2 0b011001100000000, .lkWrite2),
    (.cmdWord .lkWrite 3 0b011001100000000, .lkWrite3),
    (.cmdWord .lkPoll 0 0b011001100000000, .lkPoll)] : List (Frame × Instr)),
    decode p.1 = .instr p.2 := by decide

/-- The words of 43_command_words R217 to R221, written bit by bit, operands mixed. -/
theorem test_decode_fuse_lock_read_words : ∀ p ∈ ([
    (.cmdWord .flrEnter 0 0b010001100000100, .flrEnter),
    (.cmdWord .fuhRead 0 0b011111000000000, .fuhRead0),
    (.cmdWord .fuhRead 1 0b011111100000000, .fuhRead1),
    (.cmdWord .fulRead 0 0b011001000000000, .fulRead0),
    (.cmdWord .fulRead 1 0b011001100000000, .fulRead1),
    (.cmdWord .lkRead 0 0b011011000000000, .lkRead0),
    (.cmdWord .lkRead 1 0b011011100000000, .lkRead1),
    (.cmdWord .flrAll 0 0b011111000000000, .flrAll0),
    (.cmdWord .flrAll 1 0b011001000000000, .flrAll1),
    (.cmdWord .flrAll 2 0b011011000000000, .flrAll2),
    (.cmdWord .flrAll 3 0b011011100000000, .flrAll3)] : List (Frame × Instr)),
    decode p.1 = .instr p.2 := by decide

/-- The words of 43_command_words R222 to R226, written bit by bit, operands mixed. -/
theorem test_decode_signature_calibration_nop_words : ∀ p ∈ ([
    (.cmdWord .sigEnter 0 0b010001100001000, .sigEnter),
    (.cmdWord .sigRead 0 0b011001000000000, .sigRead0),
    (.cmdWord .sigRead 1 0b011001100000000, .sigRead1),
    (.cmdWord .calEnter 0 0b010001100001000, .calEnter),
    (.cmdWord .calRead 0 0b011011000000000, .calRead0),
    (.cmdWord .calRead 1 0b011011100000000, .calRead1),
    (.cmdWord .nop 0 0b010001100000000, .nop0), (.cmdWord .nop 1 0b011001100000000, .nop1)] : List (Frame × Instr)),
    decode p.1 = .instr p.2 := by decide

/-- 30_encoding R82: the op codes around the table. -/
theorem test_illegal_op_codes : ∀ op ∈ ([0x00, 0x19, 0xFF] : List Byte),
    decode (.hostOp op [.nat 1]) = .illegalOp op := by decide

/-- A legal op code with other arguments is refused (log 11). -/
theorem test_bad_arguments : decode (.hostOp 0x02 [.nat 4]) = .badArguments 0x02 := by decide

/-- Other IR codes and other words at a place are no rows (30_encoding R84). -/
theorem test_unknown_rows : decode (.irScan 0xF) = .unknownIrCode 0xF ∧
    decode (.cmdWord .latch 1 0x3700) = .unknownCommandWord .latch 1 0x3700 ∧
    decode (.cmdWord .latch 3 0x3700) = .unknownCommandWord .latch 3 0x3700 := by decide

/-- Bare words of the table: an IR code, an op code, a fixed word and words with operands (log 10). -/
theorem test_table_words : decodeTableWord 4 0xC = some .irAvrReset ∧
    decodeTableWord 8 0x0B = some (.flashPageRead 0) ∧ decodeTableWord 16 0x7700 = some .latch1 ∧
    decodeTableWord 15 0x07A5 = some (.addrHi 0xA5) ∧
    decodeTableWord 16 0x13FC = some (.lkData 0x3C) := by decide

/-! ### Assembler text (30_encoding R95, R96) -/

theorem test_assemble_operation :
    assembleLine referenceCmd "FLASH_PAGE_READ 0x2 ; page".toList =
      some (some (.hostOp 0x0B [.nat 2])) := by decide

theorem test_assemble_script :
    assembleLine referenceCmd "RUN_SCRIPT @ADDR_LO(165)".toList =
      some (some (.hostOp 0x06 [.list [0x03A5]])) := by decide

/-! ### Scan rows -/

/-- The IR rows load their codes (30_encoding R83). -/
theorem test_ir_rows : ∀ p ∈ ([(.irAvrReset, 0xC), (.irProgEnable, 0x4), (.irProgCommands, 0x5)] :
    List (Instr × Nat)), shown p.1 bound =
      ([.ir 4 p.2], some (.ok .empty), .idle, .known (BitVec.ofNat 8 p.2)) := by decide

/-- Each row of 43_command_words R191, R192 shifts its word and returns the one capture. -/
theorem test_shift_chip_erase_words : ∀ p ∈ ([
    (.ceSeq0, 0x2380), (.ceSeq1, 0x3180), (.ceSeq2, 0x3380), (.ceSeq3, 0x3380),
    (.cePoll, 0x3380)] : List (Instr × Nat)),
    shown p.1 bound = ([.dr 15 p.2], some (.ok (.captures [0x7FFF])), .idle, .unknown) := by decide

/-- Each row of 43_command_words R193 to R198 shifts its word and returns the one capture. -/
theorem test_shift_address_data_latch_words : ∀ p ∈ ([
    (.fwEnter, 0x2310), (.addrHi 0b10100101, 0x07A5), (.addrLo 0b10100101, 0x03A5),
    (.dataLo 0b10100101, 0x13A5), (.dataHi 0b10100101, 0x17A5), (.latch0, 0x3700),
    (.latch1, 0x7700), (.latch2, 0x3700)] : List (Instr × Nat)),
    shown p.1 bound = ([.dr 15 p.2], some (.ok (.captures [0x7FFF])), .idle, .unknown) := by decide

/-- Each row of 43_command_words R199 to R202 shifts its word and returns the one capture. -/
theorem test_shift_flash_words : ∀ p ∈ ([
    (.fwWrite0, 0x3700), (.fwWrite1, 0x3500), (.fwWrite2, 0x3700), (.fwWrite3, 0x3700),
    (.fwPoll, 0x3700), (.frEnter, 0x2302), (.frRead0, 0x3200), (.frRead1, 0x3600),
    (.frRead2, 0x3700)] : List (Instr × Nat)),
    shown p.1 bound = ([.dr 15 p.2], some (.ok (.captures [0x7FFF])), .idle, .unknown) := by decide

/-- Each row of 43_command_words R203 to R207 shifts its word and returns the one capture. -/
theorem test_shift_eeprom_words : ∀ p ∈ ([
    (.ewEnter, 0x2311), (.ewWrite0, 0x3300), (.ewWrite1, 0x3100), (.ewWrite2, 0x3300),
    (.ewWrite3, 0x3300), (.ewPoll, 0x3300), (.erEnter, 0x2303), (.erRead0 0b10100101, 0x33A5),
    (.erRead1, 0x3200), (.erRead2, 0x3300)] : List (Instr × Nat)),
    shown p.1 bound = ([.dr 15 p.2], some (.ok (.captures [0x7FFF])), .idle, .unknown) := by decide

/-- Each row of 43_command_words R208 to R216 shifts its word and returns the one capture. -/
theorem test_shift_fuse_lock_write_words : ∀ p ∈ ([
    (.fuEnter, 0x2340), (.fuhWrite0, 0x3700), (.fuhWrite1, 0x3500), (.fuhWrite2, 0x3700),
    (.fuhWrite3, 0x3700), (.fuhPoll, 0x3700), (.fulWrite0, 0x3300), (.fulWrite1, 0x3100),
    (.fulWrite2, 0x3300), (.fulWrite3, 0x3300), (.fulPoll, 0x3300), (.lkEnter, 0x2320),
    (.lkData 0b100110, 0x13E6), (.lkWrite0, 0x3300), (.lkWrite1, 0x3100), (.lkWrite2, 0x3300),
    (.lkWrite3, 0x3300), (.lkPoll, 0x3300)] : List (Instr × Nat)),
    shown p.1 bound = ([.dr 15 p.2], some (.ok (.captures [0x7FFF])), .idle, .unknown) := by decide

/-- Each row of 43_command_words R217 to R221 shifts its word and returns the one capture. -/
theorem test_shift_fuse_lock_read_words : ∀ p ∈ ([
    (.flrEnter, 0x2304), (.fuhRead0, 0x3E00), (.fuhRead1, 0x3F00), (.fulRead0, 0x3200),
    (.fulRead1, 0x3300), (.lkRead0, 0x3600), (.lkRead1, 0x3700), (.flrAll0, 0x3E00),
    (.flrAll1, 0x3200), (.flrAll2, 0x3600), (.flrAll3, 0x3700)] : List (Instr × Nat)),
    shown p.1 bound = ([.dr 15 p.2], some (.ok (.captures [0x7FFF])), .idle, .unknown) := by decide

/-- Each row of 43_command_words R222 to R226 shifts its word and returns the one capture. -/
theorem test_shift_signature_calibration_nop_words : ∀ p ∈ ([
    (.sigEnter, 0x2308), (.sigRead0, 0x3200), (.sigRead1, 0x3300), (.calEnter, 0x2308),
    (.calRead0, 0x3600), (.calRead1, 0x3700), (.nop0, 0x2300), (.nop1, 0x3300)] : List (Instr × Nat)),
    shown p.1 bound = ([.dr 15 p.2], some (.ok (.captures [0x7FFF])), .idle, .unknown) := by decide

/-! ### Scan primitives (95_test_vectors section 2.1) -/

theorem test_write_ir_truncates : shown (.writeIr 4 0x15) idle =
    ([.ir 4 5], some (.ok .empty), .idle, .known 5) := by decide

theorem test_write_ir_checks : ∀ p ∈ ([(0, .widthOverflow), (9, .widthOverflow), (5, .widthMismatch)] :
    List (Nat × ErrKind)),
    shown (.writeIr p.1 5) idle = ([], some (plainErr p.2), .idle, .unknown) := by decide

theorem test_write_dr_full_width : shown (.writeDr 32 0x100000001) idle =
    ([.dr 32 1], some (.ok (.capture 0)), .idle, .unknown) := by decide

theorem test_write_dr_checks : ∀ w ∈ ([0, 33] : List Nat),
    shown (.writeDr w 0) idle = ([], some (plainErr .widthOverflow), .idle, .unknown) := by decide

theorem test_ensure_ir_hit : shown (.ensureIr 0x1C) { idle with irCache := .known 0xC } =
    ([], some (.ok .empty), .idle, .known 0xC) := by decide

theorem test_ensure_ir_failure : shown (.ensureIr 4)
    { idle with irCache := .known 5, link := .reference [some 77] } =
    ([.ir 4 4], some (plainErr (.transport 77)), .idle, .unknown) := by decide

theorem test_invalidate_ir : shown .invalidateIr { idle with irCache := .known 5 } =
    ([], some (.ok .empty), .idle, .unknown) := by decide

/-! ### Command executor (95_test_vectors section 2.2) -/

theorem test_run_script_pipeline : shown (.runScript [0x2308, 0x0302, 0x3200, 0x3300]) session =
    ([.dr 15 0x2308, .dr 15 0x0302, .dr 15 0x3200, .dr 15 0x3300],
      some (.ok (.captures [0, 0, 0, 2])), .commandsActive, .known 5) := by decide

theorem test_run_script_partial : shown (.runScript [0x2308, 0x0300, 0x3200, 0x3300])
    { session with link := .reference [none, none, some 77] } =
    ([.dr 15 0x2308, .dr 15 0x0300, .dr 15 0x3200],
      some (.err (.transport 77) { partialCaps := some [0, 0] }), .commandsActive,
      .known 5) := by decide

/-! ### Program mode (95_test_vectors sections 1 E4 and 2.3) -/

theorem test_enter_prog : shown .enterProg idle =
    ([.ir 4 0xC, .dr 1 1, .ir 4 4, .dr 16 0xA370, .ir 4 5], some (.ok .empty), .commandsActive,
      .known 5) := by decide

theorem test_enter_prog_failure : shown .enterProg
    { idle with irCache := .known 0xC, link := .reference [none, some 77],
                target := { idle.target with ir := 0xC } } =
    ([.dr 1 1, .ir 4 4], some (plainErr (.transport 77)), .error, .unknown) := by decide

theorem test_exit_prog : shown .exitProg session =
    ([.dr 15 0x2300, .dr 15 0x3300, .ir 4 4, .dr 16 0, .ir 4 0xC, .dr 1 0], some (.ok .empty),
      .idle, .known 0xC) := by decide

theorem test_exit_prog_failure : shown .exitProg
    { session with link := .reference [none, none, none, some 77] } =
    ([.dr 15 0x2300, .dr 15 0x3300, .ir 4 4, .dr 16 0], some (plainErr (.transport 77)), .error,
      .known 4) := by decide

/-! ### Memory operations (95_test_vectors sections 1 E5, E6 and 2.4) -/

theorem test_chip_erase : shown .chipErase session =
    (drScans [0x2380, 0x3180, 0x3380, 0x3380, 0x3380], some (.ok .empty), .commandsActive,
      .known 5) := by decide

theorem test_chip_erase_timeout : shown .chipErase
    { session with cfg := { small with pollBudget := 3 },
                   target := { session.target with busyK := .inf } } =
    (drScans [0x2380, 0x3180, 0x3380, 0x3380, 0x3380, 0x3380, 0x3380],
      some (.err .timeout { polls := some 3 }), .error, .known 5) := by decide

theorem test_flash_page_write : shown (.flashPageWrite 1 [0x11, 0x22, 0x33, 0x44]) session =
    (drScans [0x2310, 0x0700, 0x0302, 0x1311, 0x1722, 0x3700, 0x7700, 0x3700, 0x0303, 0x1333,
      0x1744, 0x3700, 0x7700, 0x3700, 0x3700, 0x3500, 0x3700, 0x3700, 0x3700], some (.ok .empty),
      .commandsActive, .known 5) := by decide

theorem test_flash_page_write_commits : (List.range 16).map (fun a => Memory.read a
    (after (.flashPageWrite 2 [0xDE, 0xAD, 0xBE, 0xEF]) session).target.flash) =
    [0xFF, 0xFF, 0xFF, 0xFF, 0xFF, 0xFF, 0xFF, 0xFF, 0xDE, 0xAD, 0xBE, 0xEF, 0xFF, 0xFF, 0xFF,
      0xFF] := by decide +kernel

theorem test_flash_page_read : shown (.flashPageRead 2)
    (after (.flashPageWrite 2 [0xDE, 0xAD, 0xBE, 0xEF]) session) =
    (drScans [0x2302, 0x0700, 0x0304, 0x3200, 0x3600, 0x3700, 0x0700, 0x0305, 0x3200, 0x3600,
      0x3700], some (.ok (.bytes [0xDE, 0xAD, 0xBE, 0xEF])), .commandsActive, .known 5) := by
  decide +kernel

theorem test_eeprom_write : shown (.eepromWrite 0x1A5 0x5A) session =
    (drScans [0x2311, 0x0701, 0x03A5, 0x135A, 0x3700, 0x7700, 0x3700, 0x3300, 0x3100, 0x3300,
      0x3300, 0x3300], some (.ok .empty), .commandsActive, .known 5) := by decide

theorem test_eeprom_read : shown (.eepromRead 0x1A5) (after (.eepromWrite 0x1A5 0x5A) session) =
    (drScans [0x2303, 0x0701, 0x03A5, 0x33A5, 0x3200, 0x3300], some (.ok (.bytes [0x5A])),
      .commandsActive, .known 5) := by decide

theorem test_fuse_high_write : shown (.fuseHighWrite 0xD9) session =
    (drScans [0x2340, 0x13D9, 0x3700, 0x3500, 0x3700, 0x3700, 0x3700], some (.ok .empty),
      .commandsActive, .known 5) := by decide

theorem test_fuse_high_write_poll_failure : shown (.fuseHighWrite 0x98)
    { session with link := .reference (List.replicate 9 none ++ [some 77]),
                   target := { session.target with busyK := .finite 5 } } =
    (drScans [0x2340, 0x1398, 0x3700, 0x3500, 0x3700, 0x3700, 0x3700, 0x3700, 0x3700, 0x3700],
      some (.err (.transport 77) { polls := some 3 }), .error, .known 5) := by decide

theorem test_fuse_low_write : shown (.fuseLowWrite 0xE2) session =
    (drScans [0x2340, 0x13E2, 0x3300, 0x3100, 0x3300, 0x3300, 0x3300], some (.ok .empty),
      .commandsActive, .known 5) := by decide

theorem test_lock_write : shown (.lockWrite 0xFC) session =
    (drScans [0x2320, 0x13FC, 0x3300, 0x3100, 0x3300, 0x3300, 0x3300], some (.ok .empty),
      .commandsActive, .known 5) := by decide

theorem test_fuse_high_read : shown .fuseHighRead session =
    (drScans [0x2304, 0x3E00, 0x3F00], some (.ok (.bytes [0x99])), .commandsActive,
      .known 5) := by decide

theorem test_fuse_low_read : shown .fuseLowRead session =
    (drScans [0x2304, 0x3200, 0x3300], some (.ok (.bytes [0xE1])), .commandsActive,
      .known 5) := by decide

theorem test_lock_read : shown .lockRead session =
    (drScans [0x2304, 0x3600, 0x3700], some (.ok (.bytes [0x3F])), .commandsActive,
      .known 5) := by decide

theorem test_fuses_lock_read : shown .fusesLockRead session =
    (drScans [0x2304, 0x3E00, 0x3200, 0x3600, 0x3700], some (.ok (.bytes [0x99, 0xE1, 0x3F])),
      .commandsActive, .known 5) := by decide

theorem test_signature_read : shown (.signatureRead 1) { session with irCache := .unknown } =
    (.ir 4 5 :: drScans [0x2308, 0x0301, 0x3200, 0x3300], some (.ok (.bytes [0x95])),
      .commandsActive, .known 5) := by decide

theorem test_calibration_read : shown (.calibrationRead 3) session =
    (drScans [0x2308, 0x0303, 0x3600, 0x3700], some (.ok (.bytes [0xA4])), .commandsActive,
      .known 5) := by decide

/-- Arguments just outside their ranges, and a session that is not open (95_test_vectors section 2.4). -/
theorem test_bad_argument : ∀ i ∈ ([.flashPageWrite 4 [0, 0, 0, 0], .flashPageWrite 0 [0, 0, 0],
    .flashPageWrite 0 [0, 0, 0x100, 0], .flashPageRead 4, .eepromWrite 0x400 0, .eepromWrite 0 0x100,
    .eepromRead 0x400, .fuseHighWrite 0x100, .fuseLowWrite 0x100, .lockWrite 0x12C,
    .signatureRead 3, .calibrationRead 4] : List Instr),
    shown i session = ([], some (plainErr .badArgument), .commandsActive, .known 5) := by decide

theorem test_not_active : ∀ i ∈ ([.signatureRead 9, .chipErase, .fusesLockRead] : List Instr),
    shown i idle = ([], some (plainErr .notActive), .idle, .unknown) := by decide

/-! ### Target interface (95_test_vectors sections 1 E7 and 2.5) -/

theorem test_create : ((after .create idle).result, (after .create idle).device) =
    (some (.ok .empty), true) := by decide

theorem test_create_rejects : ∀ len ∈ ([3, 5, 8] : List Nat),
    (after .create (under (referenceConfig true len 8) (.reference []))).result =
      some (plainErr .widthMismatch) := by decide

theorem test_read_flash_range : ((after (.readFlashRange 8 3)
    { after .exitProg (after (.flashPageWrite 2 [0xDE, 0xAD, 0xBE, 0xEF]) session) with
      device := true }).result) = some (.ok (.bytes [0xDE, 0xAD, 0xBE])) := by
  decide +kernel

/-- 45_target_interface R284: after an enter with the reference codes STATUS is 0x0705. -/
theorem test_read_status : (after .readStatus session).result = some (.ok (.status 0x0705)) := by
  decide

/-! ### Steps -/

/-- A step takes the operation at the head of the port (30_encoding R82: an illegal one too). -/
theorem test_step_illegal_op : (match step { idle with port := [.frame (.hostOp 0x19 [])] } with
    | .next t => some (t.result, t.port, t.trace)
    | _ => none) = some (some (.err .illegalOp { op := some 0x19 }), [], []) := by decide

/-- A scan that is never answered leaves the operation running, under its own name (60_exceptions R347,
10_state R28), and the next step faults. -/
theorem test_unanswered_names_its_operation :
    let s := under small (.free [.silent] 0)
    (after (.writeDr 15 0x2300) s).running = some (.writeDr 15 0x2300) ∧
      (after (.runScript [0x2300]) s).running = some (.runScript [0x2300]) ∧
      (after (.writeDr 15 0x2300) s).trace = (after (.runScript [0x2300]) s).trace := by decide

theorem test_step_unanswered : step { after (.writeDr 15 0x2300) (under small (.free [.silent] 0)) with
    port := [.adapterReset] } = .fault .scanUnanswered := rfl

/-! ### Witnesses: the hypotheses of each statement hold together at concrete values -/

/-- The block in a session with its scans answered as given, the cache empty or the programming-commands
instruction in it. -/
def answered (cache : IrCache) (answers : List Answer) : State :=
  { State.launch small (.free answers 0) (Device.initial 2) with
    pm := .commandsActive, irCache := cache }

/-- Answers with these captures, as many as asked for. -/
def clears (n : Nat) : List Answer := List.replicate n (.ok 0)

theorem witness_DecodedFrameIsTheEncoding :
    decode (.cmdWord .lkData 0 0x13FF) = .instr (.lkData 0x3F) := by decide

theorem witness_IllegalOpCodesRefused : ∀ op ∈ ([0x00, 0x19, 0xFF] : List Byte),
    configOk idle.cfg = true ∧ idle.active = false ∧
      { idle with port := [.frame (.hostOp op [])] }.port = .frame (.hostOp op []) :: [] ∧
      (op = 0x00 ∨ 0x19 ≤ op.toNat) := by decide

theorem witness_StepRunsDecodedInstruction :
    (configOk idle.cfg = true ∧ idle.active = false ∧ idle.port = []) ∧
      { idle with port := [.frame (.irScan 0xC)] }.port = .frame (.irScan 0xC) :: [] ∧
      decode (.irScan 0xC) = .instr .irAvrReset := by decide

theorem witness_AdapterResetForgetsTheCacheOnly : configOk session.cfg = true ∧
    session.active = false ∧
    { session with port := [.adapterReset] }.port = .adapterReset :: [] := by decide

theorem witness_UnansweredScanHasNoFinalState :
    (∀ p ∈ ([(.writeIr 4 5, .known 4, []), (.ensureIr 5, .known 4, []),
      (.runScript [0x2300, 0x3300], .known 4, [.ok 0]), (.enterProg, .known 5, [.ok 1, .ok 0]),
      (.exitProg, .known 5, [.ok 0, .ok 0]), (.flashPageRead 0, .known 5, [.ok 0]),
      (.chipErase, .known 5, clears 4), (.readFlashRange 0 1, .unknown, clears 5)] :
      List (Instr × IrCache × List Answer)),
      let s : State := { answered p.2.1 (p.2.2 ++ [.silent]) with
        device := true
        pm := if p.1 = .enterProg ∨ p.1 = .readFlashRange 0 1 then .idle else .commandsActive }
      (after p.1 s).active = true ∧ Answer.silent ∈ (answerScans (after p.1 s).trace s).1) ∧
    (∀ w ∈ ([1, 32] : List Nat), (under small (.free [.silent] 0)).cfg.tapBound = true ∧ 1 ≤ w ∧
      w ≤ 32 ∧ (answerScan (.dr w (5 % 2 ^ w)) (under small (.free [.silent] 0))).1 = .silent) ∧
    configOk { idle with running := some .create }.cfg = true ∧
      { idle with running := some .create }.active = true ∧
      { idle with running := some .create }.port.head? ≠ some .blockReset := by decide

theorem witness_BlockResetLaunchesAgain : configOk session.cfg = true ∧
    { session with running := some .lockRead, port := [.blockReset] }.port = .blockReset :: [] := by decide

theorem witness_WriteIrLoadsTheInstruction :
    (under { small with tapBound := false } (.reference [])).cfg.tapBound = false ∧
    (idle.cfg.tapBound = true ∧ (0 = 0 ∨ 8 < 0) ∧ (9 = 0 ∨ 8 < 9)) ∧
    (∀ w ∈ ([1, 8] : List Nat), 1 ≤ w ∧ w ≤ 8 ∧ w ≠ idle.cfg.tapIrLen) ∧
    (∀ w ∈ ([1, 8] : List Nat), ∀ a ∈ ([.ok 0, .err 77] : List Answer),
      (under (referenceConfig true w 8) (.free [a] 0)).cfg.tapBound = true ∧ 1 ≤ w ∧ w ≤ 8 ∧
      w = (under (referenceConfig true w 8) (.free [a] 0)).cfg.tapIrLen ∧
      (answerScan (.ir w (255 % 2 ^ w)) (under (referenceConfig true w 8) (.free [a] 0))).1 = a) := by
  decide

theorem witness_WriteDrReturnsTheCapture :
    (under { small with tapBound := false } (.reference [])).cfg.tapBound = false ∧
    (idle.cfg.tapBound = true ∧ (0 = 0 ∨ 32 < 0) ∧ (33 = 0 ∨ 32 < 33)) ∧
    (∀ w ∈ ([1, 32] : List Nat), ∀ a ∈ ([.ok 5, .err 77] : List Answer),
      (under small (.free [a] 0)).cfg.tapBound = true ∧ 1 ≤ w ∧ w ≤ 32 ∧
      (answerScan (.dr w (7 % 2 ^ w)) (under small (.free [a] 0))).1 = a) := by decide

theorem witness_EnsureIrScansOnAMissOnly : session.irCache = loaded 5 ∧ session.irCache = loaded 0x15 ∧
    session.irCache ≠ loaded 4 ∧ TapFits session ∧
    (answerScan (.ir 4 (4 % 16)) session).1 = .ok 1 := by
  refine ⟨?_, ?_, ?_, ⟨?_, ?_⟩, ?_⟩ <;> decide

theorem witness_RepeatedEnsureIssuesNoScan : exec (.ensureIr 5) idle = .next (after (.ensureIr 5) idle) ∧
    (after (.ensureIr 5) idle).result = some (.ok .empty) ∧
    session.irCache = (after (.ensureIr 5) idle).irCache ∧ 0x15 % 16 = 5 % 16 :=
  ⟨rfl, by decide, by decide, by decide⟩

theorem witness_RunScriptReturnsEveryCapture :
    (under { small with tapBound := false } (.reference [])).cfg.tapBound = false ∧
    (∀ words ∈ ([[], [0xA300], [0x2308, 0x0301]] : List (List Nat)), session.cfg.tapBound = true ∧
      (answerScans (drScans (words.map (· % 2 ^ 15))) session).1 = oks (words.map fun _ => 0)) := by
  decide

theorem witness_RunScriptFailureCarriesThePartialResult :
    ∀ before ∈ ([[], [0x2308], [0x2308, 0x0300]] : List (List Nat)),
      (answered .unknown (clears before.length ++ [.err 77])).cfg.tapBound = true ∧
      (answerScans (drScans ((before ++ [0x3200]).map (· % 2 ^ 15)))
        (answered .unknown (clears before.length ++ [.err 77]))).1 =
        oks (before.map fun _ => 0) ++ [.err 77] := by decide

theorem witness_RunScriptResultCount :
    exec (.runScript [0x2300]) session = .next (after (.runScript [0x2300]) session) ∧
    (after (.runScript [0x2300]) session).result = some (.ok (.captures [0])) ∧
    (after (.runScript [0x2300]) { session with link := .reference [some 77] }).result =
      some (.err (.transport 77) { partialCaps := some [] }) :=
  ⟨rfl, by decide, by decide⟩

theorem session_selected : PipelineSelected session := by
  refine ⟨?_, ?_, ?_, ?_⟩ <;> decide

theorem witness_CapturesAnswerThePreviousWord : session.cfg.tapBound = true ∧
    session.link = .reference [] ∧ PipelineSelected session :=
  ⟨by decide, by decide, session_selected⟩

theorem witness_IrRowsScanTheirCode : TapFits idle ∧
    (answerScan (.ir 4 (idle.cfg.irProgEnable % 16)) idle).1 = .ok 1 :=
  ⟨⟨by decide, by decide⟩, by decide⟩

/-- The hypotheses of `ShiftsWord` for a word, met by the block at rest. -/
def shiftsMet (word : Nat) : Bool :=
  bound.cfg.tapBound && bound.cfg.cmd == referenceCmd &&
    (answerScan (.dr 15 word) bound).1 == .ok 0xFFFF

theorem witness_EraseAddressAndDataRowsShiftTheirWord :
    ∀ word ∈ ([0x2380, 0x7700, 0x0700, 0x07FF, 0x0300, 0x13FF, 0x17FF] : List Nat), shiftsMet word = true := by decide

theorem witness_FlashAndEepromRowsShiftTheirWord :
    ∀ word ∈ ([0x3700, 0x2311, 0x3300, 0x33FF] : List Nat), shiftsMet word = true := by decide

theorem witness_FuseAndLockWriteRowsShiftTheirWord :
    ∀ word ∈ ([0x2340, 0x3500, 0x13C0, 0x13FF] : List Nat), shiftsMet word = true := by decide

theorem witness_ReadAndNopRowsShiftTheirWord :
    ∀ word ∈ ([0x2304, 0x3F00, 0x2300] : List Nat), shiftsMet word = true := by decide

theorem small_fits : TapFits session ∧ WidthsFit session.cfg := by
  refine ⟨⟨?_, ?_⟩, ⟨?_, ?_⟩, ⟨?_, ?_⟩⟩ <;> decide

theorem witness_EnterProgCompletes : TapFits idle ∧ WidthsFit idle.cfg ∧ idle.pm = .idle ∧
    (answerScans (enterTrace idle) idle).1 = oks [1, 0, 1, 0, 1] :=
  ⟨small_fits.1, small_fits.2, by decide, by decide⟩

theorem witness_ExitProgCompletes : TapFits session ∧ WidthsFit session.cfg ∧
    session.cfg.cmd = referenceCmd ∧
    (∀ pm ∈ ([.commandsActive, .error] : List Pm), { session with pm := pm }.pm ≠ .idle ∧
      (answerScans (exitTrace { session with pm := pm }) { session with pm := pm }).1 =
        oks [0, 0, 1, 0, 1, 0]) :=
  ⟨small_fits.1, small_fits.2, by decide, by decide⟩

theorem witness_SecondEnterRejected : session.pm ≠ .idle := by decide

theorem witness_ExitAfterEnterReturnsToIdle : TapFits idle ∧ WidthsFit idle.cfg ∧
    idle.cfg.cmd = referenceCmd ∧ exec .enterProg idle = .next (after .enterProg idle) ∧
    (after .enterProg idle).result = some (.ok .empty) ∧
    (answerScans (exitTrace (after .enterProg idle)) (after .enterProg idle)).1 =
      oks [0, 0, 1, 0, 1, 0] :=
  ⟨small_fits.1, small_fits.2, by decide, rfl, by decide, by decide⟩

/-- An exit that fails after a successful enter, for the last clause of the same statement. -/
theorem witness_ExitAfterEnterFails :
    (after .exitProg (after .enterProg (under small (.free (clears 5 ++ [.err 77]) 0)))).result =
      some (plainErr (.transport 77)) := by decide

theorem witness_FailedTransitionLeavesError :
    ((after .enterProg { idle with link := .reference [some 77] }).result =
      some (plainErr (.transport 77)) ∧ idle.pm = .idle) ∧
    (after .exitProg { session with link := .reference [some 77] }).result =
      some (plainErr (.transport 77)) ∧ session.pm ≠ .idle ∧
    (after .enterProg idle).result = some (.ok .empty) ∧
    (after .exitProg session).result = some (.ok .empty) := by decide

theorem witness_OperationsRejectedByTheControllerState : { session with pm := .error }.pm = .error ∧
    idle.pm = .idle ∧ isMemoryOp .chipErase = true ∧ idle.pm ≠ .commandsActive ∧
    { session with pm := .error }.pm ≠ .commandsActive := by decide

theorem witness_RawOperationsKeepTheControllerState : movesPm (.runScript [1]) = false ∧
    movesPm .irAvrReset = false ∧ movesPm .create = false ∧
    exec (.runScript [1]) session = .next (after (.runScript [1]) session) :=
  ⟨by decide, by decide, by decide, rfl⟩

theorem answered_ready (cache : IrCache) (answers : List Answer) :
    SessionReady (answered cache answers) := ⟨⟨rfl, rfl⟩, rfl, rfl⟩

/-- The hypotheses of `ReadsBy` for these words, met by a ready session with every scan answered. -/
def readsMet (cache : IrCache) (words : List Nat) : Bool :=
  let scans := operationScans (answered cache []) words
  (answerScans scans (answered cache (clears scans.length))).1 ==
    oks (List.replicate (scans.length - words.length) 0) ++ oks (List.replicate words.length 0)

/-- The hypotheses of `WritesBy` for these words and so many busy polls, met by a ready session. -/
def writesMet (cache : IrCache) (words : List Nat) (pollWord busy : Nat) : Bool :=
  let opening := (operationScans (answered cache []) words).length
  let s := answered cache (clears opening ++ oks (List.replicate busy 512) ++ [.ok 0])
  decide (s.cfg.busyBit ≤ 14) && (512 : Nat).testBit s.cfg.busyBit && !(0 : Nat).testBit s.cfg.busyBit
    && decide (busy < s.cfg.pollBudget)
    && (answerScans (operationScans s words ++ drScans (List.replicate (busy + 1) pollWord)) s).1 ==
      oks (List.replicate opening 0) ++ oks (List.replicate busy 512) ++ [.ok 0]

theorem witness_ChipEraseCompletes : SessionReady (answered .unknown []) ∧
    ∀ cache ∈ ([.unknown, .known 5] : List IrCache), ∀ busy ∈ ([0, 7] : List Nat),
      writesMet cache [0x2380, 0x3180, 0x3380, 0x3380] 0x3380 busy = true :=
  ⟨answered_ready _ _, by decide⟩

/-- Valid and boundary arguments, for the statements that speak of `validArgs`. -/
theorem witness_validArgs : configOk small = true ∧
    validArgs small (.flashPageWrite 3 [0, 0xFF, 1, 2]) ∧ validArgs small (.flashPageRead 3) ∧
    validArgs small (.eepromWrite 1023 255) ∧ validArgs small (.eepromRead 1023) ∧
    validArgs small (.signatureRead 2) ∧ validArgs small (.calibrationRead 3) ∧
    validArgs small (.lockWrite 255) ∧ validArgs small .chipErase ∧
    ¬ validArgs small (.signatureRead 3) ∧ ¬ validArgs small (.flashPageRead 4) := by
  simp only [validArgs]
  decide

theorem witness_FlashPageWriteCompletes : SessionReady (answered .unknown []) ∧ configOk small = true ∧
    validArgs small (.flashPageWrite 3 [0, 0xFF, 1, 2]) ∧
    writesMet .unknown (pageWriteWords 2 3 [0, 0xFF, 1, 2]) 0x3700 1 = true :=
  ⟨answered_ready _ _, by decide, witness_validArgs.2.1, by decide⟩

theorem witness_FlashPageReadCompletes : SessionReady (answered .unknown []) ∧ configOk small = true ∧
    validArgs small (.flashPageRead 3) ∧ readsMet .unknown (pageReadWords 2 3) = true :=
  ⟨answered_ready _ _, by decide, witness_validArgs.2.2.1, by decide⟩

theorem witness_EepromOperationsComplete : SessionReady (answered .unknown []) ∧
    configOk small = true ∧ validArgs small (.eepromWrite 1023 255) ∧
    validArgs small (.eepromRead 1023) ∧
    writesMet .unknown [0x2311, 0x0703, 0x03FF, 0x13FF, 0x3700, 0x7700, 0x3700, 0x3300, 0x3100,
      0x3300, 0x3300] 0x3300 1 = true ∧
    readsMet .unknown [0x2303, 0x0703, 0x03FF, 0x33FF, 0x3200, 0x3300] = true :=
  ⟨answered_ready _ _, by decide, witness_validArgs.2.2.2.1, witness_validArgs.2.2.2.2.1,
    by decide, by decide⟩

theorem witness_FuseAndLockWritesComplete : SessionReady (answered .unknown []) ∧ 255 < 256 ∧
    writesMet .unknown [0x2340, 0x13FF, 0x3700, 0x3500, 0x3700, 0x3700] 0x3700 1 = true ∧
    writesMet .unknown [0x2340, 0x13FF, 0x3300, 0x3100, 0x3300, 0x3300] 0x3300 1 = true ∧
    writesMet .unknown [0x2320, 0x13FF, 0x3300, 0x3100, 0x3300, 0x3300] 0x3300 1 = true :=
  ⟨answered_ready _ _, by decide, by decide, by decide, by decide⟩

theorem witness_FuseAndLockReadsComplete : SessionReady (answered .unknown []) ∧
    ∀ words ∈ ([[0x2304, 0x3E00, 0x3F00], [0x2304, 0x3200, 0x3300], [0x2304, 0x3600, 0x3700],
      [0x2304, 0x3E00, 0x3200, 0x3600, 0x3700]] : List (List Nat)),
      readsMet .unknown words = true := ⟨answered_ready _ _, by decide⟩

theorem witness_SignatureAndCalibrationReadsComplete : SessionReady (answered .unknown []) ∧
    configOk small = true ∧ validArgs small (.signatureRead 2) ∧
    validArgs small (.calibrationRead 3) ∧
    readsMet .unknown [0x2308, 0x0302, 0x3200, 0x3300] = true ∧
    readsMet .unknown [0x2308, 0x0303, 0x3600, 0x3700] = true :=
  ⟨answered_ready _ _, by decide, witness_validArgs.2.2.2.2.2.1, witness_validArgs.2.2.2.2.2.2.1,
    by decide, by decide⟩

theorem witness_BusyTargetTimesOutAfterTheBudget :
    let s := answered (.known 5) (clears 4 ++ oks (List.replicate 8 512))
    SessionReady s ∧ configOk s.cfg = true ∧ validArgs s.cfg (.flashPageWrite 3 [0, 0xFF, 1, 2]) ∧
      validArgs s.cfg (.eepromWrite 1023 255) ∧ 255 < 256 ∧ s.cfg.busyBit ≤ 14 ∧
      (512 : Nat).testBit s.cfg.busyBit = true ∧
      (answerScans (operationScans s [0x2380, 0x3180, 0x3380, 0x3380]
        ++ drScans (List.replicate s.cfg.pollBudget 0x3380)) s).1 =
        oks [0, 0, 0, 0] ++ oks (List.replicate 8 512) :=
  ⟨answered_ready _ _, by decide, witness_validArgs.2.1, witness_validArgs.2.2.2.1, by decide,
    by decide, by decide, by decide⟩

theorem witness_BadArgumentsRefusedBeforeAnyScan : isMemoryOp (.signatureRead 3) = true ∧
    session.pm = .commandsActive ∧ ¬ validArgs session.cfg (.signatureRead 3) ∧
    validArgs session.cfg (.signatureRead 2) ∧
    exec (.signatureRead 2) session = .next (after (.signatureRead 2) session) := by
  refine ⟨by decide, by decide, ?_, ?_, rfl⟩ <;> simp only [validArgs] <;> decide

theorem witness_FailedMemoryOperationLeavesError : isMemoryOp .lockRead = true ∧
    validArgs session.cfg .lockRead ∧ (after .lockRead session).result = some (.ok (.bytes [0x3F])) ∧
    (after .lockRead { session with link := .reference [some 77] }).result =
      some (plainErr (.transport 77)) := ⟨by decide, trivial, by decide, by decide⟩

theorem witness_FailedPollRecordsThePollCount : ∀ busy ∈ ([0, 7] : List Nat),
    let s := answered (.known 5) (clears 4 ++ oks (List.replicate busy 512) ++ [.err 77])
    SessionReady s ∧ configOk s.cfg = true ∧ s.cfg.busyBit ≤ 14 ∧
      (512 : Nat).testBit s.cfg.busyBit = true ∧ busy < s.cfg.pollBudget ∧
      (answerScans (operationScans s [0x2380, 0x3180, 0x3380, 0x3380]
        ++ drScans (List.replicate (busy + 1) 0x3380)) s).1 =
        oks [0, 0, 0, 0] ++ oks (List.replicate busy 512) ++ [.err 77] := by
  intro busy hb
  simp only [List.mem_cons, List.not_mem_nil, or_false] at hb
  rcases hb with rfl | rfl <;>
    exact ⟨answered_ready _ _, by decide, by decide, by decide, by decide, by decide⟩

theorem witness_OnlyWritesTimeOut : (after .chipErase
    { session with target := { session.target with busyK := .inf } }).result =
      some (.err .timeout { polls := some 8 }) := by decide

theorem witness_CreateChecksTheBinding :
    (under { small with tapBound := false } (.reference [])).cfg.tapBound = false ∧
    (∀ len ∈ ([3, 5] : List Nat), (under (referenceConfig true len 8) (.reference [])).cfg.tapBound = true
      ∧ (under (referenceConfig true len 8) (.reference [])).cfg.tapIrLen ≠ 4) ∧
    idle.cfg.tapBound = true ∧ idle.cfg.tapIrLen = 4 := by decide

theorem witness_FlashRangeChecksInOrder : idle.device = false ∧
    ({ session with device := true }.device = true ∧ session.pm ≠ .idle) ∧
    ({ idle with device := true }.device = true ∧ idle.pm = .idle ∧
      2 * idle.cfg.flashWords < 0 + 17) ∧ 16 ≤ 2 * idle.cfg.flashWords := by decide

theorem witness_FlashRangeLeavesNoSession : 1 ≤ idle.cfg.pageWords ∧
    { idle with device := true }.device = true ∧ idle.pm = .idle ∧ 13 + 3 ≤ 2 * idle.cfg.flashWords ∧
    (after (.readFlashRange 13 3) { idle with device := true }).result =
      some (.ok (.bytes [0xFF, 0xFF, 0xFF])) ∧
    (after (.readFlashRange 13 3) { idle with device := true, link := .reference [some 77] }).result =
      some (plainErr (.transport 77)) := by decide

theorem witness_FlashRangeReadsTheFlash : ReferenceIdle { idle with device := true } ∧
    { idle with device := true }.device = true ∧ 0 + 16 ≤ 2 * idle.cfg.flashWords := by
  refine ⟨⟨?_, ⟨?_, ?_⟩, ?_, ?_, ?_, ?_, ?_, ?_, ?_, ?_⟩, ?_, ?_⟩
  case refine_10 => intro v h; cases h
  all_goals decide

/-- The open session of the statements over the reference device. -/
theorem session_reference : ReferenceSession session ∧ session.target.busyK = .finite 0 ∧
    0 < session.cfg.pollBudget ∧ session.target.busy = false := by
  refine ⟨⟨?_, ?_, ?_, ?_, ?_, ?_, session_selected, ?_, ?_, ?_⟩, ?_, ?_, ?_⟩
  case refine_8 | refine_9 => exact ⟨List.Pairwise.nil, by simp [session, Device.initial, State.launch]⟩
  all_goals decide

theorem witness_FlashPageRoundTrip : ReferenceSession session ∧
    validArgs session.cfg (.flashPageWrite 3 [0, 0xFF, 1, 2]) ∧ session.target.busyK = .finite 0 ∧
    0 < session.cfg.pollBudget :=
  ⟨session_reference.1, witness_validArgs.2.1, session_reference.2.1, session_reference.2.2.1⟩

theorem witness_ByteWritesStoreTheirByteOnly : ReferenceSession session ∧
    session.target.busyK = .finite 0 ∧ 0 < session.cfg.pollBudget ∧ 255 < 256 ∧
    1023 < session.cfg.eepromBytes :=
  ⟨session_reference.1, session_reference.2.1, session_reference.2.2.1, by decide, by decide⟩

theorem witness_ChipEraseErasesTheTarget : ReferenceSession session ∧
    session.target.busyK = .finite 0 ∧ 0 < session.cfg.pollBudget :=
  ⟨session_reference.1, session_reference.2.1, session_reference.2.2.1⟩

theorem witness_ByteReadsReturnTheTargetsBytes : ReferenceSession session ∧
    session.target.busy = false ∧ 1023 < session.cfg.eepromBytes ∧ 2 < session.cfg.sigBytes ∧
    3 < session.cfg.calBytes :=
  ⟨session_reference.1, session_reference.2.2.2, by decide, by decide, by decide⟩

theorem witness_FlashPageWriteTouchesItsPageOnly : configOk session.cfg = true ∧
    session.cfg.cmd = referenceCmd ∧ session.target.pagebuf.length = session.cfg.pageWords ∧
    exec (.flashPageWrite 1 [1, 2, 3, 4]) session =
      .next (after (.flashPageWrite 1 [1, 2, 3, 4]) session) ∧
    (3 < 2 * (1 * session.cfg.pageWords)) ∧ 2 * ((1 + 1) * session.cfg.pageWords) ≤ 8 :=
  ⟨by decide, by decide, by decide, rfl, by decide, by decide⟩

theorem witness_ReadsLeaveTheTargetsMemories : session.cfg.cmd = referenceCmd ∧
    isMemoryOp .lockRead = true ∧ isWriteOp .lockRead = false ∧
    exec .lockRead session = .next (after .lockRead session) ∧
    configOk { idle with device := true, irCache := .known 15 }.cfg = true ∧
    (∀ v, { idle with device := true, irCache := .known 15 }.irCache = .known v →
      v.toNat = idle.target.ir.toNat) ∧
    exec (.readFlashRange 0 1) { idle with device := true, irCache := .known 15 } = .next
      (after (.readFlashRange 0 1) { idle with device := true, irCache := .known 15 }) :=
  ⟨by decide, by decide, by decide, rfl, by decide, by intro v h; cases h; decide, rfl⟩

/-- A state with the block's invariant and a step from it, in a session and over a device. -/
theorem witness_StepKeepsTheBlockInvariant :
    BlockInv { session with port := [.frame (.hostOp 0x09 [])] } ∧
    ∃ t, step { session with port := [.frame (.hostOp 0x09 [])] } = .next t ∧
      t.result = some (.ok .empty) := by
  refine ⟨⟨by decide, by decide, ?_, ?_, by decide, by decide, by decide⟩, _, rfl, by decide⟩
  · intro v h
    cases h
    decide
  · intro h
    cases h

theorem witness_StepKeepsTheDeviceInvariant :
    DeviceInv { session with port := [.frame (.hostOp 0x09 [])] } := by
  refine ⟨?_, ?_, ?_, ?_, by decide, by decide⟩
  · exact ⟨List.Pairwise.nil, by simp [session, Device.initial, State.launch]⟩
  · exact ⟨List.Pairwise.nil, by simp [session, Device.initial, State.launch]⟩
  · simp [session, Device.initial, State.launch]
  · simp [session, Device.initial, State.launch]

theorem witness_StepKeepsWhatIsFixed : ∃ t,
    step { session with port := [.adapterReset] } = .next t ∧ t.irCache = .unknown := ⟨_, rfl, rfl⟩

theorem witness_FreeEnvironmentAnswersAsSupplied : ([Answer.ok 1, .err 7, .silent] : List Answer).length =
      (drScans [1, 2, 3]).length ∧
    (answered .unknown ([.ok 1, .err 7, .silent] ++ [.ok 9])).link =
      .free ([.ok 1, .err 7, .silent] ++ [.ok 9]) 0 ∧
    exec (.writeDr 15 0) bound = .next (after (.writeDr 15 0) bound) := ⟨by decide, by decide, rfl⟩

end Sys2Proof.Tests
end

/-! PROOF. The clean launch (10_state R37): what holds of it under every configuration, environment and
target, and the reset state as the launch under the free environment. -/

namespace Sys2Proof.Machine

/-- STATUS reads `S.device`, `S.pm` and `S.ir_cache` and no other field (10_state R31), and at the values
these have after a clean launch each of its fields is 0. -/
theorem statusWord_eq_zero_of_clean {s : State} (hcache : s.irCache = .unknown) (hpm : s.pm = .idle)
    (hdevice : s.device = false) : statusWord s = 0x0000 := by
  unfold statusWord
  rw [hcache, hpm, hdevice]
  decide

@[simp] theorem launch_irCache (c : Config) (l : Link) (d : Device) :
    (State.launch c l d).irCache = .unknown := rfl
@[simp] theorem launch_pm (c : Config) (l : Link) (d : Device) :
    (State.launch c l d).pm = .idle := rfl
@[simp] theorem launch_device (c : Config) (l : Link) (d : Device) :
    (State.launch c l d).device = false := rfl
@[simp] theorem launch_active (c : Config) (l : Link) (d : Device) :
    (State.launch c l d).active = false := rfl
@[simp] theorem launch_pos (c : Config) (l : Link) (d : Device) :
    (State.launch c l d).pos = 0 := rfl
@[simp] theorem launch_caps (c : Config) (l : Link) (d : Device) :
    (State.launch c l d).caps = [] := rfl
@[simp] theorem launch_polls (c : Config) (l : Link) (d : Device) :
    (State.launch c l d).polls = 0 := rfl
@[simp] theorem launch_link (c : Config) (l : Link) (d : Device) :
    (State.launch c l d).link = l := rfl

@[simp] theorem statusWord_launch (c : Config) (l : Link) (d : Device) :
    statusWord (State.launch c l d) = 0x0000 :=
  statusWord_eq_zero_of_clean (launch_irCache c l d) (launch_pm c l d) (launch_device c l d)

/-- The target's state is not the block's to know: reset puts the free environment in force with no answer
supplied and none drawn yet, so that the first scan already is a draw (10_state R37; log 6). -/
theorem reset_link : State.reset.link = .free [] 0 := launch_link ..

/-- Settles O10: the reset state is a clean launch, so the laws of every launch give `S`, the working state
and STATUS; its environment is the free one. -/
theorem resetIsTheCleanLaunch : Obligations.ResetIsTheCleanLaunch := by
  unfold Obligations.ResetIsTheCleanLaunch
  refine ⟨?cache, ?pm, ?device, ?noOperation, ?position, ?captures, ?polls, ⟨0, reset_link⟩, ?status⟩
  case cache => exact launch_irCache ..
  case pm => exact launch_pm ..
  case device => exact launch_device ..
  case noOperation => exact launch_active ..
  case position => exact launch_pos ..
  case captures => exact launch_caps ..
  case polls => exact launch_polls ..
  case status => exact statusWord_launch ..

end Sys2Proof.Machine

/-! PROOF. The scan primitives as host operations (40_scan_primitives section 2): WRITE_IR, WRITE_DR,
ENSURE_IR and INVALIDATE_IR. -/

namespace Sys2Proof.Machine

/-- Accepting an operation leaves the environment's next answer as it was (00_scope R11). -/
theorem answerScan_accept {i : Instr} {req : Scan} {s t : State} {a : Answer}
    (h : answerScan req s = (a, t)) : answerScan req (accept i s) = (a, accept i t) := by
  have hafter : withEnv t (accept i s) = accept i t := by rw [answerScan_frame h]; rfl
  rw [answerScan_of h (s' := accept i s) rfl rfl rfl, hafter]

/-! ### An operation that is one `write_instruction` -/

/-- The operation `i` with `write_instruction(w, v)` as all it does: `WRITE_IR` itself, and any operation
that delegates to it (40_scan_primitives R111, R115). -/
def loadRun (i : Instr) (w v : Nat) (s : State) : Host.Outcome State Fault Refusal :=
  runOperation i (fun s => (writeInstruction w v s).noData) s

theorem loadRun_eq (i : Instr) (w v : Nat) (s : State) :
    loadRun i w v s = .next (finish (writeInstruction w v (accept i s)).noData) := rfl

theorem exec_writeIr (w v : Nat) (s : State) :
    exec (.writeIr w v) s = loadRun (.writeIr w v) w v s := rfl

section LoadRun

variable {i : Instr} {w v : Nat} {s t : State}

theorem loadRun_of_check {kind : ErrKind}
    (h : writeInstruction w v (accept i s) = .err kind {} (accept i s)) :
    loadRun i w v s = .next (ended s [] (plainErr kind)) := by
  rw [loadRun_eq, h]
  rfl

theorem loadRun_unbound (hb : s.cfg.tapBound = false) :
    loadRun i w v s = .next (ended s [] (plainErr .invalidTap)) :=
  loadRun_of_check (writeInstruction_unbound hb)

theorem loadRun_overflow (hb : s.cfg.tapBound = true) (hw : w = 0 ∨ 8 < w) :
    loadRun i w v s = .next (ended s [] (plainErr .widthOverflow)) :=
  loadRun_of_check (writeInstruction_overflow hb hw)

theorem loadRun_mismatch (hb : s.cfg.tapBound = true) (h1 : 1 ≤ w) (h8 : w ≤ 8)
    (hw : w ≠ s.cfg.tapIrLen) : loadRun i w v s = .next (ended s [] (plainErr .widthMismatch)) :=
  loadRun_of_check (writeInstruction_mismatch hb h1 h8 hw)

section Scanned

variable (hb : s.cfg.tapBound = true) (h1 : 1 ≤ w) (h8 : w ≤ 8) (hw : w = s.cfg.tapIrLen)
include hb h1 h8 hw

theorem loadRun_ok {c : Nat} (h : answerScan (.ir w (v % 2 ^ w)) s = (.ok c, t)) :
    loadRun i w v s = .next (ended { t with irCache := .known (BitVec.ofNat 8 (v % 2 ^ w)) }
      [.ir w (v % 2 ^ w)] (.ok .empty)) := by
  rw [loadRun_eq, writeInstruction_eq (s := accept i s) hb h1 h8 hw (answerScan_accept h)]
  rfl

theorem loadRun_err {e : TransportError} (h : answerScan (.ir w (v % 2 ^ w)) s = (.err e, t)) :
    loadRun i w v s = .next (ended { t with irCache := .unknown }
      [.ir w (v % 2 ^ w)] (plainErr (.transport e))) := by
  rw [loadRun_eq, writeInstruction_eq (s := accept i s) hb h1 h8 hw (answerScan_accept h)]
  rfl

/-- A load whose scan is never answered waits as the operation it belongs to (60_exceptions R347). -/
theorem loadRun_silent (h : answerScan (.ir w (v % 2 ^ w)) s = (.silent, t)) :
    loadRun i w v s = .next (issue (.ir w (v % 2 ^ w)) (accept i t)) := by
  rw [loadRun_eq, writeInstruction_eq (s := accept i s) hb h1 h8 hw (answerScan_accept h)]
  rfl

end Scanned

/-- Which operation a load belongs to shows in a run that waits and nowhere else (10_state R28): an end
clears it, whether at a check or at an answer. -/
theorem loadRun_eq_runningAs (i : Instr) (w v : Nat) (s : State) :
    loadRun i w v s = runningAs i (exec (.writeIr w v) s) := by
  rw [exec_writeIr]
  cases hb : s.cfg.tapBound with
  | false => rw [loadRun_unbound hb, loadRun_unbound hb]; rfl
  | true =>
    by_cases hrange : w = 0 ∨ 8 < w
    · rw [loadRun_overflow hb hrange, loadRun_overflow hb hrange]; rfl
    have h1 : 1 ≤ w := by omega
    have h8 : w ≤ 8 := by omega
    by_cases hw : w = s.cfg.tapIrLen
    · rcases h : answerScan (.ir w (v % 2 ^ w)) s with ⟨_ | _ | _, t⟩
      case ok => rw [loadRun_ok hb h1 h8 hw h, loadRun_ok hb h1 h8 hw h]; rfl
      case err => rw [loadRun_err hb h1 h8 hw h, loadRun_err hb h1 h8 hw h]; rfl
      case silent => rw [loadRun_silent hb h1 h8 hw h, loadRun_silent hb h1 h8 hw h]; rfl
    · rw [loadRun_mismatch hb h1 h8 hw, loadRun_mismatch hb h1 h8 hw]; rfl

end LoadRun

/-! ### WRITE_DR -/

theorem exec_writeDr (w v : Nat) (s : State) : exec (.writeDr w v) s =
    .next (finish ((writeData w v (accept (.writeDr w v) s)).andThen fun c s =>
      .ok (.capture (BitVec.ofNat 32 c)) s)) := rfl

section WriteDr

variable {w v : Nat} {s t : State}

theorem exec_writeDr_of_check {kind : ErrKind} (h : writeData w v (accept (.writeDr w v) s) =
    .err kind {} (accept (.writeDr w v) s)) :
    exec (.writeDr w v) s = .next (ended s [] (plainErr kind)) := by
  rw [exec_writeDr, h]
  rfl

theorem exec_writeDr_ok {c : Nat} (hb : s.cfg.tapBound = true) (h1 : 1 ≤ w) (h32 : w ≤ 32)
    (h : answerScan (.dr w (v % 2 ^ w)) s = (.ok c, t)) :
    exec (.writeDr w v) s = .next (ended t [.dr w (v % 2 ^ w)]
      (.ok (.capture (BitVec.ofNat 32 (c % 2 ^ w))))) := by
  rw [exec_writeDr, writeData_eq (s := accept (.writeDr w v) s) hb h1 h32 (answerScan_accept h)]
  rfl

theorem exec_writeDr_err {e : TransportError} (hb : s.cfg.tapBound = true) (h1 : 1 ≤ w)
    (h32 : w ≤ 32) (h : answerScan (.dr w (v % 2 ^ w)) s = (.err e, t)) :
    exec (.writeDr w v) s = .next (ended t [.dr w (v % 2 ^ w)] (plainErr (.transport e))) := by
  rw [exec_writeDr, writeData_eq (s := accept (.writeDr w v) s) hb h1 h32 (answerScan_accept h)]
  rfl

end WriteDr

/-- The result's 32 bits hold every capture of a legal width (40_scan_primitives R113). -/
theorem toNat_ofNat_capture {w : Nat} (h32 : w ≤ 32) (c : Nat) :
    (BitVec.ofNat 32 (c % 2 ^ w)).toNat = c % 2 ^ w := by
  have hcut : c % 2 ^ w < 2 ^ w := Nat.mod_lt c (Nat.two_pow_pos w)
  have hfits : 2 ^ w ≤ 2 ^ 32 := Nat.pow_le_pow_right (by decide) h32
  rw [BitVec.toNat_ofNat, Nat.mod_eq_of_lt (hcut.trans_le hfits)]

/-! ### ENSURE_IR -/

theorem exec_ensureIr (d : Nat) (s : State) : exec (.ensureIr d) s =
    .next (finish (ensureInstruction d (accept (.ensureIr d) s)).noData) := rfl

section EnsureIr

variable {d : Nat} {s : State}

theorem exec_ensureIr_hit (h : s.irCache = loaded d) :
    exec (.ensureIr d) s = .next (ended s [] (.ok .empty)) := by
  have hrun := ensureInstruction_hit (s := accept (.ensureIr d) s) h
  rw [exec_ensureIr, hrun]
  rfl

theorem exec_ensureIr_miss (h : s.irCache ≠ loaded d) :
    exec (.ensureIr d) s = loadRun (.ensureIr d) 4 (d % 16) s := by
  have hrun := ensureInstruction_miss (s := accept (.ensureIr d) s) h
  rw [exec_ensureIr, loadRun_eq, hrun]

end EnsureIr

/-! ### INVALIDATE_IR -/

theorem exec_invalidateIr (s : State) : exec .invalidateIr s =
    .next (ended { s with irCache := .unknown } [] (.ok .empty)) := by
  have hend : finish (.ok .empty (invalidateCache (accept .invalidateIr s))) =
      ended { s with irCache := .unknown } [] (.ok .empty) := by
    rw [finish_ok, complete_eq_ended]
    rfl
  exact congrArg Host.Outcome.next hend

/-! ### The obligations -/

/-- Settles O12: each clause is the equation of a load under one check or one answer. -/
theorem writeIrLoadsTheInstruction : Obligations.WriteIrLoadsTheInstruction := by
  unfold Obligations.WriteIrLoadsTheInstruction
  intro w v s
  rw [exec_writeIr]
  refine ⟨rfl, loadRun_unbound, loadRun_overflow, loadRun_mismatch, fun hb h1 h8 hw t => ⟨?ok, ?err⟩⟩
  case ok => exact fun _ => loadRun_ok hb h1 h8 hw
  case err => exact fun _ => loadRun_err hb h1 h8 hw

/-- Settles O13: each clause is the equation of `WRITE_DR` under one check or one answer, and the capture
fits the result. -/
theorem writeDrReturnsTheCapture : Obligations.WriteDrReturnsTheCapture := by
  unfold Obligations.WriteDrReturnsTheCapture
  intro w v s
  refine ⟨rfl, ?unbound, ?overflow, fun hb h1 h32 t => ⟨?ok, ?err⟩⟩
  case unbound => exact fun hb => exec_writeDr_of_check (writeData_unbound hb)
  case overflow => exact fun hb hw => exec_writeDr_of_check (writeData_overflow hb hw)
  case ok => exact fun c h => ⟨_, toNat_ofNat_capture h32 c, exec_writeDr_ok hb h1 h32 h⟩
  case err => exact fun _ => exec_writeDr_err hb h1 h32

/-- Settles O14: a miss is a load of the low 4 bits, which differs from `WRITE_IR`'s own run in its name
only. -/
theorem ensureIrScansOnAMissOnly : Obligations.EnsureIrScansOnAMissOnly := by
  unfold Obligations.EnsureIrScansOnAMissOnly
  intro d s
  refine ⟨rfl, exec_ensureIr_hit, ?miss, ?answered⟩
  case miss =>
    intro hmiss
    rw [exec_ensureIr_miss hmiss, loadRun_eq_runningAs]
  case answered =>
    rintro hmiss ⟨hb, hlen⟩ c t h
    have hcut : d % 16 % 2 ^ 4 = d % 16 := Nat.mod_mod d 16
    rw [← hcut] at h
    rw [exec_ensureIr_miss hmiss, loadRun_ok hb (by decide) (by decide) hlen.symm h, hcut, loaded]

/-- Settles O15: what runs between acceptance and end is the one update of the cache. -/
theorem invalidateIrForgetsTheCache : Obligations.InvalidateIrForgetsTheCache := by
  unfold Obligations.InvalidateIrForgetsTheCache
  exact fun s => ⟨rfl, exec_invalidateIr s⟩

end Sys2Proof.Machine

/-! PROOF. RUN_SCRIPT as a host operation (41_command_executor section 1): what it answers when a scan of
one word fails, and how many captures it gives back however its scans are answered. -/

namespace Sys2Proof.Machine

theorem exec_runScript (words : List Nat) (s : State) : exec (.runScript words) s =
    .next (finish (runScriptOperation words (accept (.runScript words) s))) := rfl

/-! ### A scan that fails -/

/-- Accepting an operation leaves the environment's next answers as they were (00_scope R11). -/
theorem answerScans_accept {i : Instr} {reqs : List Scan} {s t : State} {as : List Answer}
    (h : answerScans reqs s = (as, t)) : answerScans reqs (accept i s) = (as, accept i t) := by
  have hafter : withEnv t (accept i s) = accept i t := by rw [answerScans_frame h]; rfl
  rw [answerScans_of h (s' := accept i s) rfl rfl rfl, hafter]

section FailedWord

variable {before later captured : List Nat} {failed : Nat} {e : TransportError} {s t : State}
  (h : answerScans (drScans ((before ++ [failed]).map (· % 2 ^ 15))) s =
    (oks captured ++ [.err e], t))
include h

/-- When the scan of one word is the first to fail, each word before it gave one capture. -/
theorem length_captured_of_failed_word : captured.length = before.length := by
  have hlen := answerScans_length h
  simpa [oks, drScans] using hlen

theorem exec_runScript_err (hb : s.cfg.tapBound = true) :
    exec (.runScript (before ++ failed :: later)) s =
      .next (ended t (drScans ((before ++ [failed]).map (· % 2 ^ 15)))
        (.err (.transport e) { partialCaps := some (captured.map (BitVec.ofNat 15)) })) := by
  have hrun := runCommandScript_err (s := accept (.runScript (before ++ failed :: later)) s)
    (later := later) hb (answerScans_accept h)
  rw [exec_runScript, runScriptOperation, hrun]
  rfl

end FailedWord

/-! ### The number of captures -/

/-- The captures collected so far are the executor's: no end of a data scan touches them
(40_scan_primitives R113). -/
theorem writeData_keeps_caps (w v : Nat) (s : State) :
    (writeData w v s).Keeps fun t => t.caps = s.caps := by
  unfold writeData
  split
  case isTrue => rfl
  split
  case isTrue => rfl
  case isFalse =>
    rcases h : answerScan (.dr w (trunc w v)) s with ⟨a, t⟩
    have hcaps : t.caps = s.caps := by rw [answerScan_frame h]; rfl
    rw [scan_eq h]
    cases a <;> exact hcaps

/-- Every word that is answered adds one capture, so the words of a script add one each when all are
answered and fewer when an error stops them (41_command_executor R140, R143). -/
theorem runWords_caps_length (words : List Nat) : ∀ s : State, (runWords words s).Meets
    (fun _ t => t.caps.length = s.caps.length + words.length)
    (fun _ _ t => t.caps.length < s.caps.length + words.length) (fun _ => True) := by
  induction words with
  | nil => exact fun s => rfl
  | cons w words ih =>
    intro s
    have hword := (writeData_keeps_caps pcmdWidth w s).mono
      (E' := fun _ _ t => t.caps.length < s.caps.length + (words.length + 1)) (fun _ _ h => h)
      (fun _ _ t h => by rw [h]; omega) (fun _ _ => trivial)
    refine hword.andThen fun c u hu => ?_
    have hpush : (pushCapture c u).caps.length = s.caps.length + 1 := by simp [hu]
    refine (ih (pushCapture c u)).mono (fun _ t h => ?_) (fun _ _ t h => ?_) (fun _ h => h)
    · rw [h, hpush, List.length_cons]; omega
    · rw [hpush] at h; omega

/-- A script starts with no captures, so what it gives back counts its own words (41_command_executor
R140, R143). -/
theorem runCommandScript_length (words : List Nat) (s : State) : (runCommandScript words s).Meets
    (fun cs _ => cs.length = words.length)
    (fun _ info _ => ∃ cs, info.partialCaps = some cs ∧ cs.length < words.length)
    (fun _ => True) := by
  have hwords := runWords_caps_length words { s with caps := [] }
  simp only [List.length_nil, Nat.zero_add] at hwords
  exact (hwords.record fun _ _ t h => ⟨t.caps, rfl, h⟩).andThen fun _ _ h => h

theorem runScriptOperation_length (words : List Nat) (s : State) :
    (runScriptOperation words s).Meets
      (fun data _ => ∃ cs, data = .captures cs ∧ cs.length = words.length)
      (fun _ info _ => ∃ cs, info.partialCaps = some cs ∧ cs.length < words.length)
      (fun _ => True) :=
  (runCommandScript_length words s).andThen fun cs _ h => ⟨cs, rfl, h⟩

/-- What an operation's run says of its data and of its errors holds of the result at the host port; a
run that waits has none (10_state R20; 60_exceptions R347). -/
theorem finish_result {i : Instr} {s : State} {r : Run OkData} {P : OkData → Prop}
    {E : ErrKind → ErrInfo → Prop} (hend : TracedEnd (accept i s) r)
    (h : r.Meets (fun data _ => P data) (fun kind info _ => E kind info) fun _ => True) :
    (∀ data, (finish r).result = some (.ok data) → P data) ∧
      ∀ kind info, (finish r).result = some (.err kind info) → E kind info := by
  cases r with
  | ok data u => exact ⟨by rintro _ ⟨⟩; exact h, by rintro _ _ ⟨⟩⟩
  | err kind info u => exact ⟨by rintro _ ⟨⟩, by rintro _ _ ⟨⟩; exact h⟩
  | stuck u =>
    have hnone : u.result = none := hend.res
    simp [hnone]

/-! ### The obligations -/

/-- Settles O18: the scans that were answered count the words before the failing one, and the script ends
at that word with the captures of these. -/
theorem runScriptFailureCarriesThePartialResult :
    Obligations.RunScriptFailureCarriesThePartialResult := by
  unfold Obligations.RunScriptFailureCarriesThePartialResult
  intro s t before later captured failed e hb h
  exact ⟨length_captured_of_failed_word h, exec_runScript_err h hb⟩

/-- Settles O19: the result at the host port is that of the script's run, whose captures are counted word
by word. -/
theorem runScriptResultCount : Obligations.RunScriptResultCount := by
  unfold Obligations.RunScriptResultCount
  intro words s t h
  rw [exec_runScript] at h
  cases h
  have hend := traced_end (runScriptOperation_traced words (accept_going (.runScript words) s))
  exact finish_result hend (runScriptOperation_length words (accept (.runScript words) s))

end Sys2Proof.Machine

/-! PROOF. The transitions of program mode as host operations (42_program_mode): the check that each begins
with, before any scan. -/

namespace Sys2Proof.Machine

/-- An operation that a check ends leaves no scan in the trace and nothing of the controller or the cache
changed (60_exceptions R344). -/
theorem runOperation_of_check {i : Instr} {op : State → Run OkData} {kind : ErrKind} {s : State}
    (h : op (accept i s) = .err kind {} (accept i s)) :
    runOperation i op s = .next (ended s [] (plainErr kind)) := by
  rw [runOperation, h]
  rfl

/-- The check that `enter_programming_mode` begins with comes before its on-error clause, so that it does
not move the controller to `Error` (42_program_mode R162, R163). -/
theorem enterProgrammingMode_active {s : State} (h : s.pm ≠ .idle) :
    enterProgrammingMode s = .err .alreadyActive {} s := by
  rw [enterProgrammingMode, if_pos h, raise_eq]

theorem exec_enterProg (s : State) : exec .enterProg s =
    runOperation .enterProg (fun s => (enterProgrammingMode s).noData) s := rfl

/-- Settles O28: acceptance leaves the controller's state as it was, so the check of the enter sequence
meets a state other than `Idle` and ends the operation there. -/
theorem secondEnterRejected : Obligations.SecondEnterRejected := by
  unfold Obligations.SecondEnterRejected
  intro s hpm
  have hactive : (accept .enterProg s).pm ≠ .idle := by rwa [accept_pm]
  rw [exec_enterProg]
  apply runOperation_of_check
  rw [enterProgrammingMode_active hactive, Run.noData_err]

end Sys2Proof.Machine

/-! PROOF. The memory operations as host operations (44_memory_ops section 1): each is one of the two
skeletons under its own argument check, and past that check nothing but scans and polls can end it. -/

namespace Sys2Proof.Machine

/-! ### The argument check -/

/-- The check that each memory operation makes of its own arguments (44_memory_ops R243). -/
def argsOk (c : Config) : Instr → Bool
  | .flashPageWrite p data => pageArgOk c p && pageDataOk c data
  | .flashPageRead p => pageArgOk c p
  | .eepromWrite a d => eepromArgOk c a && byteArgOk d
  | .eepromRead a => eepromArgOk c a
  | .fuseHighWrite d | .fuseLowWrite d | .lockWrite d => byteArgOk d
  | .signatureRead i => sigArgOk c i
  | .calibrationRead i => calArgOk c i
  | _ => true

theorem byteArgOk_iff {d : Nat} : byteArgOk d = true ↔ d < 256 := decide_eq_true_iff

theorem pageArgOk_iff {c : Config} {p : Nat} :
    pageArgOk c p = true ↔ p < c.flashWords / c.pageWords := decide_eq_true_iff

theorem eepromArgOk_iff {c : Config} {a : Nat} : eepromArgOk c a = true ↔ a < c.eepromBytes :=
  decide_eq_true_iff

theorem pageDataOk_iff {c : Config} {data : List Nat} :
    pageDataOk c data = true ↔ data.length = 2 * c.pageWords ∧ ∀ d ∈ data, d < 256 := by
  simp only [pageDataOk, Bool.and_eq_true, beq_iff_eq, List.all_eq_true, byteArgOk_iff]

theorem argsOk_iff {c : Config} {i : Instr} : argsOk c i = true ↔ validArgs c i := by
  cases i
  case flashPageWrite p data =>
    show (pageArgOk c p && pageDataOk c data) = true ↔ _
    rw [Bool.and_eq_true, pageArgOk_iff, pageDataOk_iff, validArgs]
  case eepromWrite a d =>
    show (eepromArgOk c a && byteArgOk d) = true ↔ _
    rw [Bool.and_eq_true, eepromArgOk_iff, byteArgOk_iff, validArgs]
  case flashPageRead => exact pageArgOk_iff
  case eepromRead => exact eepromArgOk_iff
  case fuseHighWrite | fuseLowWrite | lockWrite => exact byteArgOk_iff
  case signatureRead | calibrationRead => exact decide_eq_true_iff
  all_goals exact iff_of_true rfl trivial

/-! ### The skeleton -/

/-- The run of a memory operation from the state `s`, by what its argument check says (44_memory_ops
R240). -/
inductive MemoryRun (valid : Bool) (s : State) : Run OkData → Prop
  | read (words : List CmdWord) (extract : List CmdWord → List Byte) :
    MemoryRun valid s (readOperation valid words extract s)
  | write (words : List CmdWord) (pollWord : CmdWord) :
    MemoryRun valid s (writeOperation valid words pollWord s)

theorem exec_memoryOp {i : Instr} (hi : isMemoryOp i = true) (s : State) :
    ∃ op, exec i s = runOperation i op s ∧
      MemoryRun (argsOk s.cfg i) (accept i s) (op (accept i s)) := by
  cases i
  case chipErase | flashPageWrite | eepromWrite | fuseHighWrite | fuseLowWrite | lockWrite =>
    exact ⟨_, rfl, .write _ _⟩
  case flashPageRead | eepromRead | fuseHighRead | fuseLowRead | lockRead | fusesLockRead
      | signatureRead | calibrationRead =>
    exact ⟨_, rfl, .read _ _⟩
  all_goals cases hi

theorem MemoryRun.traced {valid : Bool} {i : Instr} {s : State} {r : Run OkData}
    (h : MemoryRun valid (accept i s) r) : TracedEnd (accept i s) r := by
  cases h with
  | read => exact traced_end (readOperation_traced _ _ _ (accept_going i s))
  | write => exact traced_end (writeOperation_traced _ _ _ (accept_going i s))

theorem MemoryRun.eq_badArgument {s : State} {r : Run OkData} (h : MemoryRun false s r)
    (hpm : s.pm = .commandsActive) : r = .err .badArgument {} s := by
  cases h with
  | read => exact readOperation_invalid hpm
  | write => exact writeOperation_invalid hpm

/-! ### Past the checks -/

section NoOwnError

variable {α β : Type}

/-- No error that the run ends in is of one of the spec's own kinds: each comes from the TAP, the protocol
or the transport (60_exceptions R340). -/
def Run.NoOwnError (r : Run α) : Prop :=
  r.Meets (fun _ _ => True) (fun kind _ _ => kind.errClass ≠ .specOwn) fun _ => True

theorem Run.noOwnError_ok (v : α) (s : State) : (Run.ok v s).NoOwnError := trivial

theorem raise_noOwnError {kind : ErrKind} {s : State} (h : kind.errClass ≠ .specOwn) :
    (raise kind s : Run α).NoOwnError := h

theorem Run.NoOwnError.andThen {r : Run α} {k : α → State → Run β} (h : r.NoOwnError)
    (hk : ∀ v s, (k v s).NoOwnError) : (r.andThen k).NoOwnError :=
  Run.Meets.andThen h fun v s _ => hk v s

theorem Run.NoOwnError.onError {clause : State → State} {r : Run α} (h : r.NoOwnError) :
    (r.onError clause).NoOwnError := Run.Meets.onError h fun _ _ _ hkind => hkind

theorem Run.NoOwnError.record {f : State → ErrInfo → ErrInfo} {r : Run α} (h : r.NoOwnError) :
    (r.record f).NoOwnError := Run.Meets.record h fun _ _ _ hkind => hkind

end NoOwnError

theorem scan_noOwnError (req : Scan) (s : State) : (scan req s).NoOwnError := by
  rcases h : answerScan req s with ⟨a, t⟩
  rw [scan_eq h]
  cases a with
  | ok => trivial
  | err e => exact raise_noOwnError (kind := .transport e) nofun
  | silent => trivial

theorem writeInstruction_noOwnError (w v : Nat) (s : State) : (writeInstruction w v s).NoOwnError := by
  have hscan := scan_noOwnError (.ir w (trunc w v)) s
  unfold writeInstruction
  split
  case isTrue => exact raise_noOwnError nofun
  split
  case isTrue => exact raise_noOwnError nofun
  split
  case isTrue => exact raise_noOwnError nofun
  split <;> next hends => rw [hends] at hscan; exact hscan

theorem writeData_noOwnError (w v : Nat) (s : State) : (writeData w v s).NoOwnError := by
  unfold writeData
  split
  case isTrue => exact raise_noOwnError nofun
  split
  case isTrue => exact raise_noOwnError nofun
  case isFalse => exact scan_noOwnError _ s

theorem ensureInstruction_noOwnError (d : Nat) (s : State) : (ensureInstruction d s).NoOwnError := by
  unfold ensureInstruction
  split
  case isTrue => exact Run.noOwnError_ok () s
  case isFalse => exact writeInstruction_noOwnError _ _ s

theorem runWords_noOwnError (words : List Nat) : ∀ s : State, (runWords words s).NoOwnError := by
  induction words with
  | nil => exact fun s => Run.noOwnError_ok () s
  | cons w words ih => exact fun s => (writeData_noOwnError pcmdWidth w s).andThen fun _ _ => ih _

theorem runScriptInside_noOwnError (words : List CmdWord) (s : State) :
    (runScriptInside words s).NoOwnError :=
  ((runWords_noOwnError _ _).record.andThen fun _ _ => Run.noOwnError_ok _ _).record

theorem scriptPhase_noOwnError (words : List CmdWord) (s : State) : (scriptPhase words s).NoOwnError :=
  (ensureInstruction_noOwnError _ s).andThen fun _ _ => runScriptInside_noOwnError words _

theorem pollLoop_noOwnError (pollWord : CmdWord) (left : Nat) :
    ∀ s : State, (pollLoop pollWord left s).NoOwnError := by
  induction left with
  | zero => exact fun s => raise_noOwnError nofun
  | succ left ih =>
    refine fun s => (runScriptInside_noOwnError [pollWord] s).andThen fun cs t => ?_
    dsimp only
    split
    case isTrue => exact ih _
    case isFalse => exact Run.noOwnError_ok () _

theorem busyPoll_noOwnError (pollWord : CmdWord) (s : State) : (busyPoll pollWord s).NoOwnError :=
  (pollLoop_noOwnError pollWord _ _).record

/-- `NotActive` and `BadArgument` are of the spec's own kinds, and the two checks are the only places where
a memory operation raises one (44_memory_ops R242, R243). -/
theorem MemoryRun.noOwnError {s : State} {r : Run OkData} (h : MemoryRun true s r)
    (hpm : s.pm = .commandsActive) : r.NoOwnError := by
  cases h with
  | read words =>
    rw [readOperation, if_neg (not_not.mpr hpm), if_neg nofun]
    exact (scriptPhase_noOwnError words s).onError.andThen fun _ _ => Run.noOwnError_ok _ _
  | write words pollWord =>
    rw [writeOperation, if_neg (not_not.mpr hpm), if_neg nofun]
    have hwork := (scriptPhase_noOwnError words s).andThen fun _ t => busyPoll_noOwnError pollWord t
    exact hwork.onError.andThen fun _ _ => Run.noOwnError_ok _ _

/-! ### The obligation -/

/-- Settles O40: the argument check decides between an end before any scan and a run whose errors are those
of scans and polls. -/
theorem badArgumentsRefusedBeforeAnyScan : Obligations.BadArgumentsRefusedBeforeAnyScan := by
  unfold Obligations.BadArgumentsRefusedBeforeAnyScan
  intro i s t hi hpm
  obtain ⟨op, hexec, hrun⟩ := exec_memoryOp hi s
  have hactive : (accept i s).pm = .commandsActive := by rwa [accept_pm]
  rw [hexec, ← argsOk_iff]
  refine ⟨?invalid, ?valid⟩
  case invalid =>
    intro hargs
    rw [Bool.eq_false_of_not_eq_true hargs] at hrun
    exact runOperation_of_check (hrun.eq_badArgument hactive)
  case valid =>
    rintro hargs ⟨⟩ info hresult
    rw [hargs] at hrun
    obtain ⟨-, herr⟩ := finish_result (P := fun _ => True)
      (E := fun kind _ => kind.errClass ≠ .specOwn) hrun.traced (hrun.noOwnError hactive)
    exact herr .badArgument info hresult rfl

end Sys2Proof.Machine

/-! PROOF. CREATE and READ_STATUS as host operations (45_target_interface R280, R284): the two
checks of the binding before the DeviceHandle, and the fields of the STATUS word (10_state R31). Neither
operation issues a scan. -/

namespace Sys2Proof.Machine

/-- An operation that neither fails nor scans ends with its data and the state it made; the transient
working state of its run does not survive (10_state R20, R28). -/
theorem runOperation_of_ok {i : Instr} {op : State → Run OkData} {data : OkData} {s t : State}
    (h : op (accept i s) = .ok data (accept i t)) :
    runOperation i op s = .next (ended t [] (.ok data)) := by
  rw [runOperation, h]
  rfl

/-! ### STATUS by its fields -/

/-- A field of one bit is read as that bit. -/
theorem getLsbD_of_extractLsb'_one {w i : Nat} {v : BitVec w} {b : Bool}
    (h : v.extractLsb' i 1 = BitVec.ofBool b) : v.getLsbD i = b := by
  have hbit : (v.extractLsb' i 1).getLsbD 0 = (BitVec.ofBool b).getLsbD 0 := by rw [h]
  simpa using hbit

section StatusWord

variable (s : State)

theorem statusWord_cacheValue : (statusWord s).extractLsb' 0 8 = s.irCache.value :=
  BitVec.extractLsb'_append_eq_right

/-- Above the 8 bits of the cache's value STATUS holds its other fields. -/
theorem statusWord_above_cacheValue {start len : Nat} (h : 8 ≤ start) :
    (statusWord s).extractLsb' start len =
      ((0 : BitVec 3) ++ BitVec.ofBool s.device ++ s.pm.code
        ++ BitVec.ofBool s.irCache.valid).extractLsb' (start - 8) len :=
  BitVec.extractLsb'_append_eq_of_le h

/-- Above the two fields of the cache STATUS holds those of the controller and the device. -/
theorem statusWord_above_cache {start len : Nat} (h : 9 ≤ start) :
    (statusWord s).extractLsb' start len =
      ((0 : BitVec 3) ++ BitVec.ofBool s.device ++ s.pm.code).extractLsb' (start - 9) len := by
  rw [statusWord_above_cacheValue s (by omega), BitVec.extractLsb'_append_eq_of_le (by omega),
    Nat.sub_sub]

/-- Above the field of the controller STATUS holds that of the device and three zero bits. -/
theorem statusWord_above_pm {start len : Nat} (h : 12 ≤ start) :
    (statusWord s).extractLsb' start len =
      ((0 : BitVec 3) ++ BitVec.ofBool s.device).extractLsb' (start - 12) len := by
  rw [statusWord_above_cache s (by omega), BitVec.extractLsb'_append_eq_of_le (by omega),
    Nat.sub_sub]

theorem statusWord_cacheValid : (statusWord s).getLsbD 8 = s.irCache.valid := by
  apply getLsbD_of_extractLsb'_one
  rw [statusWord_above_cacheValue s le_rfl]
  exact BitVec.extractLsb'_append_eq_right

theorem statusWord_pmCode : (statusWord s).extractLsb' 9 3 = s.pm.code := by
  rw [statusWord_above_cache s le_rfl]
  exact BitVec.extractLsb'_append_eq_right

theorem statusWord_device : (statusWord s).getLsbD 12 = s.device := by
  apply getLsbD_of_extractLsb'_one
  rw [statusWord_above_pm s le_rfl]
  exact BitVec.extractLsb'_append_eq_right

theorem statusWord_reserved : (statusWord s).extractLsb' 13 3 = 0 := by
  rw [statusWord_above_pm s (by decide)]
  exact BitVec.extractLsb'_append_eq_left

end StatusWord

/-! ### READ_STATUS -/

/-- Acceptance changes none of the three fields that STATUS is computed from (10_state R31). -/
@[simp] theorem statusWord_accept (i : Instr) (s : State) : statusWord (accept i s) = statusWord s := rfl

theorem exec_readStatus (s : State) : exec .readStatus s =
    runOperation .readStatus (fun s => .ok (.status (statusWord s)) s) s := rfl

theorem exec_readStatus_eq_ended (s : State) : exec .readStatus s =
    .next (ended s [] (.ok (.status (statusWord s)))) := by
  rw [exec_readStatus]
  apply runOperation_of_ok
  rw [statusWord_accept]

/-- Settles O46: the word that the operation returns is STATUS, and each clause is the law of one of its
fields. -/
theorem readStatusReturnsTheFields : Obligations.ReadStatusReturnsTheFields := by
  unfold Obligations.ReadStatusReturnsTheFields
  intro s
  refine ⟨rfl, statusWord s, exec_readStatus_eq_ended s, ?value, ?valid, ?pm,
    statusWord_device s, statusWord_reserved s⟩
  case value =>
    rw [statusWord_cacheValue]
    cases s.irCache <;> rfl
  case valid =>
    rw [statusWord_cacheValid]
    cases s.irCache <;> rfl
  case pm =>
    rw [statusWord_pmCode]
    cases s.pm <;> rfl

/-! ### CREATE -/

section CreateHandle

variable {s : State}

theorem createHandle_unbound (hb : s.cfg.tapBound = false) :
    createHandle s = .err .invalidTap {} s := by
  rw [createHandle, if_pos hb, raise_eq]

theorem createHandle_mismatch (hb : s.cfg.tapBound = true) (hlen : s.cfg.tapIrLen ≠ irWidth) :
    createHandle s = .err .widthMismatch {} s := by
  rw [createHandle, if_neg (ne_false_of_eq_true hb), if_pos hlen, raise_eq]

theorem createHandle_fits (hb : s.cfg.tapBound = true) (hlen : s.cfg.tapIrLen = irWidth) :
    createHandle s = .ok () { s with device := true } := by
  rw [createHandle, if_neg (ne_false_of_eq_true hb), if_neg (not_not.mpr hlen)]

end CreateHandle

theorem exec_create (s : State) : exec .create s =
    runOperation .create (fun s => (createHandle s).noData) s := rfl

/-- Settles O45: acceptance keeps the binding, so each clause is the equation of `create()` under one
outcome of its two checks. -/
theorem createChecksTheBinding : Obligations.CreateChecksTheBinding := by
  unfold Obligations.CreateChecksTheBinding
  intro s
  rw [exec_create]
  refine ⟨rfl, ?unbound, ?mismatch, ?fits⟩
  case unbound =>
    intro hb
    apply runOperation_of_check
    rw [createHandle_unbound (s := accept .create s) hb, Run.noData_err]
  case mismatch =>
    intro hb hlen
    apply runOperation_of_check
    rw [createHandle_mismatch (s := accept .create s) hb hlen, Run.noData_err]
  case fits =>
    intro hb hlen
    apply runOperation_of_ok
    rw [createHandle_fits (s := accept .create s) hb hlen, Run.noData_ok]
    rfl

end Sys2Proof.Machine

/-! PROOF. The encoder and the decoder (30_encoding sections 1 to 3; 43_command_words section 1): each is
the other's inverse. A word with an operand is its fixed bits and the operand side by side, and both
directions rest on that one form. -/

namespace Sys2Proof

/-! ### Words with an operand -/

/-- Over a base whose operand field is 0, `base | operand` is the fixed bits beside the operand
(30_encoding R87, R90). -/
theorem wordWith_append (op7 : BitVec 7) (b : Byte) : wordWith (op7 ++ (0 : Byte)) b = op7 ++ b := by
  apply BitVec.eq_of_toNat_eq
  have hb := b.isLt
  rw [wordWith, BitVec.toNat_or, BitVec.toNat_append, BitVec.toNat_append, BitVec.toNat_setWidth,
    Nat.mod_eq_of_lt (by omega)]
  simp

/-- The same of the lock operand, whose base holds ones in bits 7:6 (30_encoding R88). -/
theorem wordWith_lock (d : BitVec 6) :
    wordWith 0x13C0 (d.setWidth 8) = (0b001001111 : BitVec 9) ++ d := by
  revert d
  decide

theorem byteStep_append (op7 : BitVec 7) (f : Byte → Instr) (b : Byte) :
    byteStep op7 f (op7 ++ b) = some (f b) := by
  rw [byteStep, BitVec.extractLsb'_append_eq_left, BitVec.extractLsb'_append_eq_right, if_pos rfl]

theorem byteStep_wordWith (op7 : BitVec 7) (f : Byte → Instr) (b : Byte) :
    byteStep op7 f (wordWith (op7 ++ (0 : Byte)) b) = some (f b) := by
  rw [wordWith_append, byteStep_append]

theorem lockStep_wordWith (d : BitVec 6) :
    lockStep (wordWith 0x13C0 (d.setWidth 8)) = some (.lkData d) := by
  rw [wordWith_lock, lockStep, BitVec.extractLsb'_append_eq_left,
    BitVec.extractLsb'_append_eq_right, if_pos rfl]

/-! ### The readers of the command-word table -/

/-- Each word that a reader takes is the word that the encoder puts at this place. -/
def ReadsPlace (sc : Script) (k : Nat) (read : CmdWord → Option Instr) : Prop :=
  ∀ w i, read w = some i → encode i = .cmdWord sc k w

/-- The same of the readers of a script, at its places from `k` on. -/
def ReadsPlaces (sc : Script) : Nat → List (CmdWord → Option Instr) → Prop
  | _, [] => True
  | k, read :: rest => ReadsPlace sc k read ∧ ReadsPlaces sc (k + 1) rest

theorem ReadsPlaces.get {sc : Script} {reads : List (CmdWord → Option Instr)} :
    ∀ {k j : Nat} {read : CmdWord → Option Instr}, ReadsPlaces sc k reads → reads[j]? = some read →
      ReadsPlace sc (k + j) read := by
  induction reads with
  | nil => rintro k j read - ⟨⟩
  | cons first rest ih =>
    rintro k j read ⟨hfirst, hrest⟩ h
    cases j with
    | zero => cases h; exact hfirst
    | succ j =>
      rw [show k + (j + 1) = k + 1 + j by omega]
      exact ih hrest h

theorem readsPlace_fixedStep {sc : Script} {k : Nat} {p : CmdWord} {i : Instr}
    (h : encode i = .cmdWord sc k p) : ReadsPlace sc k (fixedStep p i) := by
  intro w j hw
  unfold fixedStep at hw
  split at hw
  case isTrue heq => cases hw; rw [h, heq]
  case isFalse => cases hw

/-- A word is its fixed bits beside its operand. -/
theorem append_extractLsb' {n m l : Nat} (w : BitVec l) (hl : l = n + m) :
    (w.extractLsb' m n ++ w.extractLsb' 0 m) = w.cast hl := by
  subst hl
  apply BitVec.eq_of_getLsbD_eq
  intro i hi
  rw [BitVec.getLsbD_append, BitVec.getLsbD_extractLsb', BitVec.getLsbD_extractLsb', BitVec.getLsbD_cast]
  by_cases him : i < m
  · simp [him]
  · simp [him, show i - m < n by omega, show m + (i - m) = i by omega]

theorem readsPlace_byteStep {sc : Script} {k : Nat} {op7 : BitVec 7} {f : Byte → Instr}
    (h : ∀ b, encode (f b) = .cmdWord sc k (wordWith (op7 ++ (0 : Byte)) b)) :
    ReadsPlace sc k (byteStep op7 f) := by
  intro w j hw
  unfold byteStep at hw
  split at hw
  case isTrue heq =>
    cases hw
    have hparts : w.extractLsb' 8 7 ++ w.extractLsb' 0 8 = w := append_extractLsb' w rfl
    rw [h, wordWith_append, ← heq, hparts]
  case isFalse => cases hw

theorem readsPlace_lockStep : ReadsPlace .lkData 0 lockStep := by
  intro w j hw
  unfold lockStep at hw
  split at hw
  case isTrue heq =>
    cases hw
    have hparts : w.extractLsb' 6 9 ++ w.extractLsb' 0 6 = w := append_extractLsb' w rfl
    rw [encode, wordWith_lock, ← heq, hparts]
  case isFalse => cases hw

/-- Script by script, the decoder's table holds the encoder's words (43_command_words R190 to R226). -/
theorem readsPlaces_steps (sc : Script) : ReadsPlaces sc 0 sc.steps := by
  cases sc
  case addrHi | addrLo | dataLo | dataHi =>
    exact ⟨readsPlace_byteStep fun _ => rfl, trivial⟩
  case erRead =>
    exact ⟨readsPlace_byteStep fun _ => rfl, readsPlace_fixedStep rfl, readsPlace_fixedStep rfl, trivial⟩
  case lkData => exact ⟨readsPlace_lockStep, trivial⟩
  case ceSeq | fwWrite | ewWrite | fuhWrite | fulWrite | lkWrite | flrAll =>
    exact ⟨readsPlace_fixedStep rfl, readsPlace_fixedStep rfl, readsPlace_fixedStep rfl,
      readsPlace_fixedStep rfl, trivial⟩
  case latch | frRead =>
    exact ⟨readsPlace_fixedStep rfl, readsPlace_fixedStep rfl, readsPlace_fixedStep rfl, trivial⟩
  case fuhRead | fulRead | lkRead | sigRead | calRead | nop =>
    exact ⟨readsPlace_fixedStep rfl, readsPlace_fixedStep rfl, trivial⟩
  all_goals exact ⟨readsPlace_fixedStep rfl, trivial⟩

theorem decode_cmdWord {sc : Script} {k : Nat} {w : CmdWord} {read : CmdWord → Option Instr}
    {i : Instr} (hplace : sc.steps[k]? = some read) (hread : read w = some i) :
    decode (.cmdWord sc k w) = .instr i := by
  rw [decode, decodeCommandWord, hplace]
  simp only [hread]

theorem encode_of_decodeCommandWord {sc : Script} {k : Nat} {w : CmdWord} {i : Instr}
    (h : decodeCommandWord sc k w = .instr i) : encode i = .cmdWord sc k w := by
  unfold decodeCommandWord at h
  split at h
  case h_1 read hread =>
    split at h
    case h_1 j hj =>
      cases h
      have hplace := (readsPlaces_steps sc).get hread w _ hj
      rwa [Nat.zero_add] at hplace
    case h_2 => cases h
  case h_2 => cases h

/-! ### The readers of the host port and of the IR scans -/

section Takes

variable {op : Byte} {args : List Arg} {j : Instr}

theorem takeNone_eq_instr {i : Instr} : takeNone op i args = .instr j ↔ args = [] ∧ i = j := by
  unfold takeNone
  split <;> simp_all

theorem takeNat_eq_instr {f : Nat → Instr} :
    takeNat op f args = .instr j ↔ ∃ n, args = [.nat n] ∧ f n = j := by
  unfold takeNat
  split <;> simp_all

theorem takeNats_eq_instr {f : Nat → Nat → Instr} :
    takeNats op f args = .instr j ↔ ∃ n m, args = [.nat n, .nat m] ∧ f n m = j := by
  unfold takeNats
  split <;> simp_all

theorem takeList_eq_instr {f : List Nat → Instr} :
    takeList op f args = .instr j ↔ ∃ ns, args = [.list ns] ∧ f ns = j := by
  unfold takeList
  split <;> simp_all

theorem takeNatList_eq_instr {f : Nat → List Nat → Instr} :
    takeNatList op f args = .instr j ↔ ∃ n ns, args = [.nat n, .list ns] ∧ f n ns = j := by
  unfold takeNatList
  split <;> simp_all

/-- An op code is known by its number. -/
theorem eq_ofNat_of_toNat {n : Nat} (h : op.toNat = n) : op = BitVec.ofNat 8 n := by
  rw [← h, BitVec.ofNat_toNat, BitVec.setWidth_eq]

theorem encode_of_decodeHostOp (h : decodeHostOp op args = .instr j) :
    encode j = .hostOp op args := by
  unfold decodeHostOp at h
  split at h
  case h_2 hop | h_3 hop | h_12 hop | h_23 hop =>
    obtain ⟨n, m, rfl, rfl⟩ := takeNats_eq_instr.mp h
    rw [eq_ofNat_of_toNat hop]; rfl
  case h_4 hop | h_11 hop | h_13 hop | h_14 hop | h_15 hop | h_16 hop | h_21 hop | h_22 hop =>
    obtain ⟨n, rfl, rfl⟩ := takeNat_eq_instr.mp h
    rw [eq_ofNat_of_toNat hop]; rfl
  case h_6 hop =>
    obtain ⟨ns, rfl, rfl⟩ := takeList_eq_instr.mp h
    rw [eq_ofNat_of_toNat hop]; rfl
  case h_10 hop =>
    obtain ⟨n, ns, rfl, rfl⟩ := takeNatList_eq_instr.mp h
    rw [eq_ofNat_of_toNat hop]; rfl
  case h_25 => cases h
  case h_1 hop | h_5 hop | h_7 hop | h_8 hop | h_9 hop | h_17 hop | h_18 hop | h_19 hop | h_20 hop
      | h_24 hop =>
    obtain ⟨rfl, rfl⟩ := takeNone_eq_instr.mp h
    rw [eq_ofNat_of_toNat hop]; rfl

/-! No reader of arguments answers that the op code is illegal. -/

theorem takeNone_ne_illegalOp {i : Instr} {op' : Byte} : takeNone op i args ≠ .illegalOp op' := by
  unfold takeNone; split <;> nofun

theorem takeNat_ne_illegalOp {f : Nat → Instr} {op' : Byte} :
    takeNat op f args ≠ .illegalOp op' := by
  unfold takeNat; split <;> nofun

theorem takeNats_ne_illegalOp {f : Nat → Nat → Instr} {op' : Byte} :
    takeNats op f args ≠ .illegalOp op' := by
  unfold takeNats; split <;> nofun

theorem takeList_ne_illegalOp {f : List Nat → Instr} {op' : Byte} :
    takeList op f args ≠ .illegalOp op' := by
  unfold takeList; split <;> nofun

theorem takeNatList_ne_illegalOp {f : Nat → List Nat → Instr} {op' : Byte} :
    takeNatList op f args ≠ .illegalOp op' := by
  unfold takeNatList; split <;> nofun

end Takes

theorem encode_of_decodeIrScan {code : BitVec 4} {i : Instr} (h : decodeIrScan code = .instr i) :
    encode i = .irScan code := by
  have hcode : BitVec.ofNat 4 code.toNat = code := by rw [BitVec.ofNat_toNat, BitVec.setWidth_eq]
  unfold decodeIrScan at h
  split at h
  case h_4 => cases h
  all_goals
    next hnat =>
    rw [hnat] at hcode
    cases h
    rw [← hcode]
    rfl

/-- The op codes of no operation (30_encoding R82): a reader of arguments answers nothing of the kind. -/
theorem decodeHostOp_eq_illegalOp {op : Byte} {args : List Arg} :
    decodeHostOp op args = .illegalOp op ↔ op = 0x00 ∨ 0x19 ≤ op.toNat := by
  have hzero : op = 0x00 ↔ op.toNat = 0 :=
    ⟨fun h => by rw [h]; rfl, fun h => eq_ofNat_of_toNat h⟩
  rw [hzero]
  unfold decodeHostOp
  split
  case h_25 =>
    refine iff_of_true rfl ?_
    simp only [imp_false] at *
    omega
  case h_2 | h_3 | h_12 | h_23 => exact iff_of_false takeNats_ne_illegalOp (by omega)
  case h_4 | h_11 | h_13 | h_14 | h_15 | h_16 | h_21 | h_22 =>
    exact iff_of_false takeNat_ne_illegalOp (by omega)
  case h_6 => exact iff_of_false takeList_ne_illegalOp (by omega)
  case h_10 => exact iff_of_false takeNatList_ne_illegalOp (by omega)
  case h_1 | h_5 | h_7 | h_8 | h_9 | h_17 | h_18 | h_19 | h_20 | h_24 =>
    exact iff_of_false takeNone_ne_illegalOp (by omega)

/-! ### The obligations -/

/-- Settles O1: a word without an operand is compared with itself, and a word with one is its fixed bits
beside the operand. -/
theorem decodeInvertsEncode : Obligations.DecodeInvertsEncode := by
  unfold Obligations.DecodeInvertsEncode
  intro i
  cases i
  case addrHi | addrLo | dataLo | dataHi | erRead0 =>
    exact decode_cmdWord rfl (byteStep_wordWith _ _ _)
  case lkData => exact decode_cmdWord rfl (lockStep_wordWith _)
  all_goals rfl

/-- Settles O2: by the three forms of a frame, each reader takes the encoder's frames only. -/
theorem decodedFrameIsTheEncoding : Obligations.DecodedFrameIsTheEncoding := by
  unfold Obligations.DecodedFrameIsTheEncoding
  intro f i h
  cases f with
  | hostOp op args => exact encode_of_decodeHostOp h
  | irScan code => exact encode_of_decodeIrScan h
  | cmdWord sc k w => exact encode_of_decodeCommandWord h

/-- Settles O3: seven closed words, each decoded by the tables. -/
theorem handWrittenWordsDecode : Obligations.HandWrittenWordsDecode := by
  unfold Obligations.HandWrittenWordsDecode
  decide

end Sys2Proof

/-! PROOF. One step of the machine: what it does with each input of the port (00_scope section 3,
60_exceptions section 5, 70_reset_and_hazards section 1), and which configurations it runs (00_scope
section 4). -/

namespace Sys2Proof.Machine

/-! ### The configuration -/

theorem pageWordsOk_iff {n : Nat} :
    pageWordsOk n = true ↔ (∃ k, n = 2 ^ k) ∧ 1 ≤ n ∧ n ≤ 256 := by
  simp only [pageWordsOk, List.contains_iff_mem, List.mem_cons, List.not_mem_nil, or_false]
  constructor
  · rintro (rfl | rfl | rfl | rfl | rfl | rfl | rfl | rfl | rfl)
    · exact ⟨⟨0, rfl⟩, by decide, by decide⟩
    · exact ⟨⟨1, rfl⟩, by decide, by decide⟩
    · exact ⟨⟨2, rfl⟩, by decide, by decide⟩
    · exact ⟨⟨3, rfl⟩, by decide, by decide⟩
    · exact ⟨⟨4, rfl⟩, by decide, by decide⟩
    · exact ⟨⟨5, rfl⟩, by decide, by decide⟩
    · exact ⟨⟨6, rfl⟩, by decide, by decide⟩
    · exact ⟨⟨7, rfl⟩, by decide, by decide⟩
    · exact ⟨⟨8, rfl⟩, by decide, by decide⟩
  · rintro ⟨⟨k, rfl⟩, -, hle⟩
    have hk : k ≤ 8 := by
      by_contra hk
      have hpow : 2 ^ 9 ≤ 2 ^ k := Nat.pow_le_pow_right (by decide) (by omega)
      omega
    interval_cases k <;> decide

/-- The constraints of 00_scope R9, one by one. -/
theorem configOk_iff {c : Config} : configOk c = true ↔
    1 ≤ c.pollBudget ∧ (∃ k, c.pageWords = 2 ^ k) ∧ 1 ≤ c.pageWords ∧ c.pageWords ≤ 256 ∧
      c.pageWords ∣ c.flashWords ∧ c.flashWords ≤ 65536 ∧ c.eepromBytes ≤ 65536 ∧
      (1 ≤ c.sigBytes ∧ c.sigBytes ≤ 256) ∧ (1 ≤ c.calBytes ∧ c.calBytes ≤ 256) ∧
      c.busyBit ≤ 14 ∧ 1 ≤ c.tapIrLen ∧
      (c.irAvrReset < 16 ∧ c.irProgEnable < 16 ∧ c.irProgCommands < 16) ∧ WidthsFit c := by
  simp only [configOk, Bool.and_eq_true, bne_iff_ne, beq_iff_eq, decide_eq_true_eq, pageWordsOk_iff]
  simp only [irWidth, drMaxWidth, WidthsFit, Nat.dvd_iff_mod_eq_zero, Nat.one_le_iff_ne_zero, and_assoc]
  exact Iff.rfl

/-! ### The three kinds of input -/

section Inputs

variable {s : State} (hcfg : configOk s.cfg = true)
include hcfg

theorem step_idle (hrest : s.active = false) (hp : s.port = []) : step s = .next s := by
  rw [step, if_neg (by simp [hcfg]), hp]
  simp [hrest]

theorem step_frame {f : Frame} {rest : List Input} (hrest : s.active = false)
    (hp : s.port = .frame f :: rest) :
    step s = runDecoded (decode f) { s with port := rest } := by
  have htake : s.takeInput = { s with port := rest } := by rw [State.takeInput, hp]; rfl
  rw [step, if_neg (by simp [hcfg]), hp]
  simp [hrest, takeStep, htake]

theorem step_adapterReset {rest : List Input} (hrest : s.active = false)
    (hp : s.port = .adapterReset :: rest) : step s = .next (adapterReset { s with port := rest }) := by
  have htake : s.takeInput = { s with port := rest } := by rw [State.takeInput, hp]; rfl
  rw [step, if_neg (by simp [hcfg]), hp]
  simp [hrest, takeStep, htake]

theorem step_blockReset {rest : List Input} (hp : s.port = .blockReset :: rest) :
    step s = .next (relaunch { s with port := rest }) := by
  have htake : s.takeInput = { s with port := rest } := by rw [State.takeInput, hp]; rfl
  rw [step, if_neg (by simp [hcfg]), hp]
  simp [htake]

/-- A block that waits for an answer takes no input but a reset of the block (60_exceptions R347). -/
theorem step_stuck (hbusy : s.active = true) (hp : s.port.head? ≠ some .blockReset) :
    step s = .fault .scanUnanswered := by
  rw [step, if_neg (by simp [hcfg])]
  split
  case h_1 => rw [if_pos hbusy]
  case h_2 _ hport => exact absurd (by rw [hport]; rfl) hp
  case h_3 => rw [if_pos hbusy]

end Inputs

/-- Every instruction ends in a next state: its run is over or waits (60_exceptions R343, R347). -/
theorem exec_next (i : Instr) (s : State) : ∃ t, exec i s = .next t :=
  let ⟨_, hrun, _⟩ := exec_traced i s
  ⟨_, hrun⟩

theorem runDecoded_ne_badConfiguration (d : Decoded) (s : State) :
    runDecoded d s ≠ .refused .badConfiguration := by
  cases d with
  | instr i =>
    obtain ⟨t, ht⟩ := exec_next i s
    rw [runDecoded, ht]
    nofun
  | illegalOp | badArguments | unknownIrCode | unknownCommandWord => nofun

/-- No other refusal of a step has the name of a bad configuration (log 12). -/
theorem step_eq_badConfiguration {s : State} :
    step s = .refused .badConfiguration ↔ ¬ configOk s.cfg = true := by
  constructor
  · intro h hcfg
    rw [step, if_neg (by simp [hcfg])] at h
    split at h
    case h_1 => split at h <;> cases h
    case h_2 => cases h
    case h_3 input _ _ _ =>
      split at h
      · cases h
      cases input with
      | frame f => exact runDecoded_ne_badConfiguration _ _ h
      | adapterReset | blockReset => cases h
  · intro h
    rw [step, if_pos (by simpa using h)]

theorem rejectOp_eq_ended (op : Byte) (s : State) :
    rejectOp op s = ended s [] (.err .illegalOp { op := some op }) := rfl

/-! ### The obligations -/

/-- Settles O4: the decoder's table says which op codes are illegal, and the step that takes one rejects
it. -/
theorem illegalOpCodesRefused : Obligations.IllegalOpCodesRefused := by
  unfold Obligations.IllegalOpCodesRefused
  intro op args
  refine ⟨decodeHostOp_eq_illegalOp, fun s rest hcfg hrest hp hop => ?_⟩
  have hdecode : decode (.hostOp op args) = .illegalOp op := decodeHostOp_eq_illegalOp.mpr hop
  rw [step_frame hcfg hrest hp, hdecode, runDecoded, rejectOp_eq_ended]

/-- Settles O5: the two steps of a block at rest, with a frame at its port and with nothing there. -/
theorem stepRunsDecodedInstruction : Obligations.StepRunsDecodedInstruction := by
  unfold Obligations.StepRunsDecodedInstruction
  refine fun s hcfg hrest => ⟨fun f rest i hp hdecode => ?_, step_idle hcfg hrest⟩
  rw [step_frame hcfg hrest hp, hdecode, runDecoded]

/-- Settles O6: every run of an instruction is over or waits, and both are next states. -/
theorem everyInstructionAnswersANextState : Obligations.EveryInstructionAnswersANextState := by
  unfold Obligations.EveryInstructionAnswersANextState
  exact exec_next

/-- Settles O7: what the step does with the event is the one update of the cache. -/
theorem adapterResetForgetsTheCacheOnly : Obligations.AdapterResetForgetsTheCacheOnly := by
  unfold Obligations.AdapterResetForgetsTheCacheOnly
  intro s rest hcfg hrest hp
  rw [step_adapterReset hcfg hrest hp]
  rfl

/-- Settles O9: the step refuses what breaks the check, and the check is the list of constraints. -/
theorem badConfigurationsRefused : Obligations.BadConfigurationsRefused := by
  unfold Obligations.BadConfigurationsRefused
  intro s
  rw [step_eq_badConfiguration, configOk_iff]

/-- Settles O11: the step relaunches, and a relaunch is the clean launch around the configuration, the
environment and the target as they were. -/
theorem blockResetLaunchesAgain : Obligations.BlockResetLaunchesAgain := by
  unfold Obligations.BlockResetLaunchesAgain
  intro s rest hcfg hp
  refine ⟨_, step_blockReset hcfg hp, rfl, rfl, rfl, rfl, rfl, rfl, rfl, ?_, rfl, rfl, rfl, rfl⟩
  exact statusWord_eq_zero_of_clean (relaunch_irCache _) (relaunch_pm _) (relaunch_device _)

end Sys2Proof.Machine

/-! PROOF. The invariants (10_state, 47_reference_device section 1): what every scan keeps of the
environment, and the runs of the 96 instructions told apart once, by what they do to the controller. -/

namespace Sys2Proof.Machine

/-! ### What an instruction runs -/

/-- The run of an instruction from its acceptance on, by the rule it follows: raw (42_program_mode R160),
enter or exit, a memory operation, or a range read. -/
inductive InstrRun (i : Instr) (s : State) : Run OkData → Prop
  | create (hraw : movesPm i = false) : InstrRun i s (createHandle s).noData
  | load (hraw : movesPm i = false) (w v : Nat) : InstrRun i s (writeInstruction w v s).noData
  | data (hraw : movesPm i = false) (w v : Nat) : InstrRun i s
      ((writeData w v s).andThen fun c s => .ok (.capture (BitVec.ofNat 32 c)) s)
  | ensure (hraw : movesPm i = false) (d : Nat) : InstrRun i s (ensureInstruction d s).noData
  | forget (hraw : movesPm i = false) : InstrRun i s (.ok .empty (invalidateCache s))
  | script (hraw : movesPm i = false) (words : List Nat) : InstrRun i s (runScriptOperation words s)
  | status (hraw : movesPm i = false) : InstrRun i s (.ok (.status (statusWord s)) s)
  | enter (hi : i = .enterProg) : InstrRun i s (enterProgrammingMode s).noData
  | exit (hi : i = .exitProg) : InstrRun i s (exitProgrammingMode s).noData
  | read (hmem : isMemoryOp i = true) (hread : isWriteOp i = false) (words : List CmdWord)
      (extract : List CmdWord → List Byte) :
      InstrRun i s (readOperation (argsOk s.cfg i) words extract s)
  | write (hmem : isMemoryOp i = true) (hwrite : isWriteOp i = true) (words : List CmdWord)
      (pollWord : CmdWord) : InstrRun i s (writeOperation (argsOk s.cfg i) words pollWord s)
  | range (b count : Nat) (hi : i = .readFlashRange b count) : InstrRun i s (readFlashRange b count s)

/-- Every instruction runs by one of the rules. -/
theorem exec_instrRun (i : Instr) (s : State) :
    ∃ r : Run OkData, exec i s = .next (finish r) ∧ InstrRun i (accept i s) r := by
  cases i
  case create => exact ⟨_, rfl, .create rfl⟩
  case writeIr | irAvrReset | irProgEnable | irProgCommands => exact ⟨_, rfl, .load rfl _ _⟩
  case writeDr => exact ⟨_, rfl, .data rfl _ _⟩
  case ensureIr => exact ⟨_, rfl, .ensure rfl _⟩
  case invalidateIr => exact ⟨.ok .empty (invalidateCache (accept _ s)), rfl, .forget rfl⟩
  case readStatus => exact ⟨.ok (.status (statusWord (accept _ s))) (accept _ s), rfl, .status rfl⟩
  case enterProg => exact ⟨_, rfl, .enter rfl⟩
  case exitProg => exact ⟨_, rfl, .exit rfl⟩
  case readFlashRange => exact ⟨_, rfl, .range _ _ rfl⟩
  case chipErase | flashPageWrite | eepromWrite | fuseHighWrite | fuseLowWrite | lockWrite =>
    exact ⟨_, rfl, .write rfl rfl _ _⟩
  case flashPageRead | eepromRead | fuseHighRead | fuseLowRead | lockRead | fusesLockRead
      | signatureRead | calibrationRead =>
    exact ⟨_, rfl, .read rfl rfl _ _⟩
  all_goals exact ⟨_, rfl, .script rfl _⟩

/-- What raw operations keep. -/
theorem InstrRun.keeps_of_raw {I : State → Prop} (hI : OpClosed I)
    (hd : ∀ s, TapFits s → I s → I { s with device := true }) {i : Instr} {s : State}
    {r : Run OkData} (hr : InstrRun i s r) (hraw : movesPm i = false) (h : I s) : r.Keeps I := by
  cases hr with
  | create => exact (createHandle_keeps hd h).noData
  | load => exact (writeInstruction_keeps hI _ _ h).noData
  | data => exact (writeData_keeps hI.toScanClosed _ _ h).andThenOk
  | ensure => exact (ensureInstruction_keeps hI _ h).noData
  | forget => exact hI.forget _ h
  | script => exact runScriptOperation_keeps hI.toScanClosed _ h
  | status => exact h
  | enter hi | exit hi | range _ _ hi => rw [hi] at hraw; cases hraw
  | read hmem | write hmem => unfold movesPm at hraw; split at hraw <;> simp_all

/-! ### The environment side -/

/-- A predicate on the configuration and the environment that every answer keeps is kept by everything
else as well: no other part of an operation writes them. -/
theorem opClosed_env {J : Config → Link → Device → Prop}
    (hJ : ∀ req s, J s.cfg s.link s.target →
      J s.cfg (answerScan req s).2.link (answerScan req s).2.target) :
    OpClosed fun s => J s.cfg s.link s.target where
  scan req s h := by
    rw [answerScan_issue]
    exact hJ req (issue req s) h
  caps _ _ h := h
  forget _ h := h
  load _ _ _ _ _ _ _ h := h
  pollStart _ h := h
  pollNext _ h _ := h

theorem exec_keeps_env {J : Config → Link → Device → Prop}
    (hJ : ∀ req s, J s.cfg s.link s.target →
      J s.cfg (answerScan req s).2.link (answerScan req s).2.target)
    {i : Instr} {s t : State} (h : J s.cfg s.link s.target) (ht : exec i s = .next t) :
    J t.cfg t.link t.target :=
  exec_keeps (opClosed_env hJ) (fun _ _ h => h) (fun _ _ h => h) (fun _ _ h => h) i
    (by exact h) ht

/-- An answer leaves the target as it was or is the reference device's own (47_reference_device R302,
R303, R312). -/
theorem answerScan_target (req : Scan) (s : State) : (answerScan req s).2.target = s.target ∨
    (answerScan req s).2.target = (deviceScan s.cfg req s.target).2 := by
  unfold answerScan
  split
  case h_4 | h_5 => exact .inr rfl
  all_goals exact .inl rfl

/-- A step keeps what every scan keeps of the configuration and the device: only an instruction reaches
the target. -/
theorem step_keeps_target {J : Config → Device → Prop} {s t : State}
    (hJ : ∀ req d, J s.cfg d → J s.cfg (deviceScan s.cfg req d).2) (h : J s.cfg s.target)
    (ht : step s = .next t) : t.cfg = s.cfg ∧ J s.cfg t.target := by
  have hscan : ∀ req u, (u.cfg = s.cfg ∧ J s.cfg u.target) →
      u.cfg = s.cfg ∧ J s.cfg (answerScan req u).2.target := by
    rintro req u ⟨hc, hu⟩
    refine ⟨hc, ?_⟩
    rcases answerScan_target req u with he | he
    · rw [he]; exact hu
    · rw [he, hc]; exact hJ req _ hu
  obtain ⟨-, ⟨-, -, rfl⟩ | ⟨-, rfl | ⟨-, rfl | ⟨op, rfl⟩ | ⟨i, hi⟩⟩⟩⟩ := step_cases ht
  case inr.inr.inr.inr =>
    exact exec_keeps_env (s := s.takeInput) (J := fun c _ d => c = s.cfg ∧ J s.cfg d) hscan
      ⟨rfl, h⟩ hi
  all_goals exact ⟨rfl, h⟩

/-- Under the free environment no scan reaches the reference device (log 6). -/
theorem answerScan_free {req : Scan} {s : State} {supplied : List Answer} {n : Nat}
    (h : s.link = .free supplied n) : (answerScan req s).2.target = s.target ∧
      ∃ supplied' n', (answerScan req s).2.link = .free supplied' n' := by
  cases supplied <;> simp [answerScan, h]

theorem answerScans_supplied {reqs : List Scan} : ∀ {s : State} {answers rest : List Answer} {n : Nat},
    answers.length = reqs.length → s.link = .free (answers ++ rest) n →
    answerScans reqs s = (answers, { s with link := .free rest (n + reqs.length) }) := by
  induction reqs with
  | nil =>
    intro s answers rest n hlen hl
    cases answers with
    | nil => rw [answerScans, List.length_nil, Nat.add_zero, ← List.nil_append rest, ← hl]
    | cons => cases hlen
  | cons req reqs ih =>
    intro s answers rest n hlen hl
    cases answers with
    | nil => cases hlen
    | cons a answers =>
      have hfirst : answerScan req s = (a, { s with link := .free (answers ++ rest) (n + 1) }) := by
        rw [answerScan, hl]
        rfl
      have hrest := ih (s := { s with link := .free (answers ++ rest) (n + 1) })
        (by simpa using hlen) rfl
      rw [answerScans_of_cons hfirst hrest, List.length_cons, show n + 1 + reqs.length =
        n + (reqs.length + 1) by omega]

/-! ### The block side -/

/-- What holds of a running operation, whatever the controller does: the block's invariant without its two
clauses for a block at rest. -/
structure Running (s : State) : Prop where
  busy : s.active = true
  cacheBacked : ∀ v, s.irCache = .known v →
    s.cfg.tapBound = true ∧ 1 ≤ s.cfg.tapIrLen ∧ s.cfg.tapIrLen ≤ 8 ∧ v.toNat < 2 ^ s.cfg.tapIrLen
  handleBacked : s.device = true → TapFits s
  traceCounted : s.trace.length = s.pos
  noResultYet : s.result = none
  pollsBounded : s.polls ≤ s.cfg.pollBudget

theorem running_opClosed : OpClosed Running where
  scan req s h := by
    rw [answerScan_issue]
    exact ⟨h.busy, h.cacheBacked, h.handleBacked, by simp [withEnv, h.traceCounted], h.noResultYet,
      h.pollsBounded⟩
  caps _ _ h := ⟨h.busy, h.cacheBacked, h.handleBacked, h.traceCounted, h.noResultYet, h.pollsBounded⟩
  forget _ h := ⟨h.busy, nofun, h.handleBacked, h.traceCounted, h.noResultYet, h.pollsBounded⟩
  load w v s hb h1 h8 hw h := by
    refine ⟨h.busy, ?_, h.handleBacked, h.traceCounted, h.noResultYet, h.pollsBounded⟩
    rintro _ ⟨⟩
    refine ⟨hb, hw ▸ h1, hw ▸ h8, ?_⟩
    show (BitVec.ofNat 8 (trunc w v)).toNat < 2 ^ s.cfg.tapIrLen
    rw [BitVec.toNat_ofNat, ← hw]
    exact (Nat.mod_le _ _).trans_lt (Nat.mod_lt _ (Nat.two_pow_pos w))
  pollStart _ h := ⟨h.busy, h.cacheBacked, h.handleBacked, h.traceCounted, h.noResultYet, Nat.zero_le _⟩
  pollNext _ h hlt := ⟨h.busy, h.cacheBacked, h.handleBacked, h.traceCounted, h.noResultYet, hlt⟩

theorem Running.setPm {s : State} (pm : Pm) (h : Running s) : Running (setPm pm s) :=
  ⟨h.busy, h.cacheBacked, h.handleBacked, h.traceCounted, h.noResultYet, h.pollsBounded⟩

theorem BlockInv.accept {s : State} (i : Instr) (h : BlockInv s) : Running (accept i s) :=
  ⟨rfl, h.cacheBacked, h.handleBacked, rfl, rfl, Nat.zero_le _⟩

/-- A controller state in which the block can rest (10_state R23). -/
def RestPm (pm : Pm) : Prop := pm = .idle ∨ pm = .commandsActive ∨ pm = .error

theorem Running.complete {s : State} (res : Result) (h : Running s) (hpm : RestPm s.pm) :
    BlockInv (complete res s) :=
  ⟨fun _ => hpm, fun _ => ⟨rfl, rfl, rfl⟩, h.cacheBacked, h.handleBacked, nofun, nofun,
    Nat.zero_le _⟩

theorem Running.waiting {s : State} (h : Running s) : BlockInv s := by
  have hbusy : s.active ≠ false := by simp [h.busy]
  exact ⟨fun hrest => absurd hrest hbusy, fun hrest => absurd hrest hbusy, h.cacheBacked,
    h.handleBacked, fun _ => h.traceCounted, fun _ => h.noResultYet, h.pollsBounded⟩

/-! ### The obligations -/

/-- Settles O56: the launch has nothing transient, an unknown cache and no handle, and the initial device
is sized for the launch configuration. -/
theorem resetMeetsTheInvariants : Obligations.ResetMeetsTheInvariants := by
  unfold Obligations.ResetMeetsTheInvariants
  refine ⟨⟨fun _ => .inl rfl, fun _ => ⟨rfl, rfl, rfl⟩, nofun, nofun, nofun, fun _ => rfl,
    Nat.zero_le _⟩, ⟨Device.initial_flash_wf _, Device.initial_eeprom_wf _, nofun, nofun, ?_,
    Nat.zero_le _⟩⟩
  show (List.replicate launchConfig.pageWords (0xFFFF : Half)).length = launchConfig.pageWords
  exact List.length_replicate

/-- Settles O58: the device's form is kept by every scan of a configuration with whole pages, and a step
reaches the device by scans only. -/
theorem stepKeepsTheDeviceInvariant : Obligations.StepKeepsTheDeviceInvariant := by
  unfold Obligations.StepKeepsTheDeviceInvariant
  intro s t h ht
  have hpages : s.cfg.pageWords ∣ s.cfg.flashWords := configOk_pages (step_cases ht).1
  have hsized : Device.Sized s.cfg s.target :=
    ⟨h.flashWf, h.eepromWf, h.flashInSpace, h.eepromInSpace, h.pageSized, h.strobeBounded⟩
  obtain ⟨hcfg, h1, h2, h3, h4, h5, h6⟩ :=
    step_keeps_target (J := Device.Sized) (fun req d => deviceScan_sized hpages req) hsized ht
  rw [← hcfg] at h3 h4 h5
  exact ⟨h1, h2, h3, h4, h5, h6⟩

/-- Settles O59: no scan touches the read-only bytes or the busy parameter, and nothing but scans reaches
the device. -/
theorem stepKeepsWhatIsFixed : Obligations.StepKeepsWhatIsFixed := by
  unfold Obligations.StepKeepsWhatIsFixed
  intro s t ht
  refine step_keeps_target (J := fun _ d => d.sig = s.target.sig ∧ d.cal = s.target.cal ∧
    d.busyK = s.target.busyK) (fun req d h => ?_) ⟨rfl, rfl, rfl⟩ ht
  obtain ⟨hsig, hcal, hbusy⟩ := deviceScan_fixed s.cfg req d
  exact ⟨hsig.trans h.1, hcal.trans h.2.1, hbusy.trans h.2.2⟩

/-- Settles O60: each supplied answer is taken in its turn, and no answer of the free environment is the
device's. -/
theorem freeEnvironmentAnswersAsSupplied : Obligations.FreeEnvironmentAnswersAsSupplied := by
  unfold Obligations.FreeEnvironmentAnswersAsSupplied
  refine ⟨fun s reqs answers rest n => answerScans_supplied, fun i s t supplied n hl ht => ?_⟩
  refine exec_keeps_env (J := fun _ l d => d = s.target ∧ ∃ supplied' n', l = .free supplied' n')
    ?_ ⟨rfl, supplied, n, hl⟩ ht
  rintro req u ⟨hu, supplied', n', hl'⟩
  obtain ⟨htarget, hlink⟩ := answerScan_free (req := req) hl'
  exact ⟨htarget.trans hu, hlink⟩

end Sys2Proof.Machine

/-! PROOF. The controller (42_program_mode): where each run leaves `S.pm` when it is over and when it waits,
what its errors carry, and what the host reads of both (60_exceptions sections 1 and 5). -/

namespace Sys2Proof.Machine

/-! ### From a run to the host port -/

theorem InstrRun.traced {i : Instr} {s : State} {r : Run OkData} (hr : InstrRun i (accept i s) r) :
    TracedEnd (accept i s) r := by
  have h := accept_going i s
  cases hr with
  | create =>
    refine Run.Meets.noData (P := fun _ u => Over _ u) ?_ fun _ _ h => h
    unfold createHandle
    split
    case isTrue => exact h.over
    split <;> exact h.over
  | load => exact traced_end (noData_traced (writeInstruction_traced h))
  | data => exact traced_end (Run.Meets.andThen (writeData_traced h) fun _ _ h => h)
  | ensure => exact traced_end (noData_traced (ensureInstruction_traced h))
  | forget => exact h.over
  | script => exact traced_end (runScriptOperation_traced _ h)
  | status => exact h.over
  | enter => exact traced_end (noData_traced (enterProgrammingMode_traced h))
  | exit => exact traced_end (noData_traced (exitProgrammingMode_traced h))
  | read => exact traced_end (readOperation_traced _ _ _ h)
  | write => exact traced_end (writeOperation_traced _ _ _ h)
  | range => exact traced_end (readFlashRange_traced _ _ h)

/-- The state an operation leaves, by its result: what holds where the run ended with data, with an error
or waiting holds of it, if the end of the operation does not touch it (10_state R20). -/
theorem finish_ends {i : Instr} {s : State} {r : Run OkData} {P : OkData → State → Prop}
    {E : ErrKind → ErrInfo → State → Prop} {K : State → Prop} (hend : TracedEnd (accept i s) r)
    (h : r.Meets P E K) (hP : ∀ data u res, P data u → P data (complete res u))
    (hE : ∀ kind info u res, E kind info u → E kind info (complete res u)) :
    (∀ data, (finish r).result = some (.ok data) → P data (finish r)) ∧
    (∀ kind info, (finish r).result = some (.err kind info) → E kind info (finish r)) ∧
    ((finish r).active = true → K (finish r)) := by
  cases r with
  | ok data u => exact ⟨by rintro _ ⟨⟩; exact hP _ _ _ h, nofun, nofun⟩
  | err kind info u => exact ⟨nofun, by rintro _ _ ⟨⟩; exact hE _ _ _ _ h, nofun⟩
  | stuck u =>
    have hnone : u.result = none := hend.res
    exact ⟨by simp [hnone], by simp [hnone], fun _ => h⟩

/-! ### Where the controller stands at each scan -/

theorem drCount_concat (trace : List Scan) (req : Scan) :
    drCount (trace ++ [req]) = drCount trace + drCount [req] := by
  simp only [drCount, List.filter_append, List.length_append]

/-- A part of an operation in the controller state `pm`, with this cache and so many data scans answered. -/
structure At (c : Config) (pm : Pm) (cache : IrCache) (drs : Nat) (s : State) : Prop where
  cfg : s.cfg = c
  pm : s.pm = pm
  cache : s.irCache = cache
  drs : drCount s.trace = drs

/-- The part waits in the controller state `pm`, with at least `lo` and fewer than `hi` data scans
answered. -/
structure WaitsAt (pm : Pm) (lo hi : Nat) (s : State) : Prop where
  pm : s.pm = pm
  lo : lo ≤ drCount s.trace.dropLast
  hi : drCount s.trace.dropLast < hi

theorem At.setPm {c : Config} {pm : Pm} {cache : IrCache} {n : Nat} {s : State}
    (h : At c pm cache n s) (pm' : Pm) : At c pm' cache n (setPm pm' s) := ⟨h.cfg, rfl, h.cache, h.drs⟩

section Position

variable {c : Config} {pm : Pm} {cache : IrCache} {n : Nat} {s : State}

theorem scan_at (req : Scan) (h : At c pm cache n s) : (scan req s).Meets
    (fun _ => At c pm cache (n + drCount [req])) (fun _ _ _ => True) (WaitsAt pm n (n + 1)) := by
  rcases ha : answerScan req s with ⟨a, t⟩
  have hf := answerScan_frame ha
  have hcfg : t.cfg = c := by rw [hf]; exact h.cfg
  have hpm : t.pm = pm := by rw [hf]; exact h.pm
  have hcache : t.irCache = cache := by rw [hf]; exact h.cache
  have htrace : t.trace = s.trace := by rw [hf]; rfl
  rw [scan_eq ha]
  cases a with
  | ok =>
    refine ⟨hcfg, hpm, hcache, ?_⟩
    rw [issue_trace, drCount_concat, htrace, h.drs]
  | err => trivial
  | silent =>
    have hwait : drCount (issue req t).trace.dropLast = n := by
      rw [issue_trace, List.dropLast_concat, htrace, h.drs]
    exact ⟨hpm, hwait.ge, by omega⟩

theorem writeData_at (w v : Nat) (h : At c pm cache n s) : (writeData w v s).Meets
    (fun _ => At c pm cache (n + 1)) (fun _ _ _ => True) (WaitsAt pm n (n + 1)) := by
  unfold writeData
  split
  case isTrue => trivial
  split
  case isTrue => trivial
  case isFalse => exact scan_at _ h

theorem ensureInstruction_at (d : Nat) (h : At c pm cache n s) : (ensureInstruction d s).Meets
    (fun _ => At c pm (loaded d) n) (fun _ _ _ => True) (WaitsAt pm n (n + 1)) := by
  unfold ensureInstruction
  split
  case isTrue hhit => exact ⟨h.cfg, h.pm, hhit, h.drs⟩
  case isFalse =>
    have hscan := scan_at (.ir irWidth (trunc irWidth (trunc irWidth d))) h
    unfold writeInstruction
    split
    case isTrue => trivial
    split
    case isTrue => trivial
    split
    case isTrue => trivial
    split
    case h_1 hends =>
      rw [hends] at hscan
      have hcode : trunc irWidth (trunc irWidth d) = d % 16 := Nat.mod_mod d 16
      exact ⟨hscan.cfg, hscan.pm, by rw [hcode, loaded], hscan.drs⟩
    case h_2 => trivial
    case h_3 hends => rw [hends] at hscan; exact hscan

theorem At.setCaps (h : At c pm cache n s) (cs : List CmdWord) : At c pm cache n { s with caps := cs } :=
  ⟨h.cfg, h.pm, h.cache, h.drs⟩

theorem runWords_at (words : List Nat) : ∀ {n : Nat} {s : State}, At c pm cache n s →
    (runWords words s).Meets (fun _ => At c pm cache (n + words.length)) (fun _ _ _ => True)
      (WaitsAt pm n (n + words.length)) := by
  induction words with
  | nil => exact fun h => h
  | cons w words ih =>
    intro n s h
    rw [List.length_cons, show n + (words.length + 1) = n + 1 + words.length by omega]
    have hword := (writeData_at pcmdWidth w h).mono (K' := WaitsAt pm n (n + 1 + words.length))
      (fun _ _ h => h) (fun _ _ _ h => h) fun _ hw => ⟨hw.pm, hw.lo, by have := hw.hi; omega⟩
    refine hword.andThen fun d t ht => ?_
    exact (ih (ht.setCaps _)).mono (fun _ _ h => h) (fun _ _ _ h => h)
      fun _ hw => ⟨hw.pm, by have := hw.lo; omega, hw.hi⟩

theorem runScriptInside_at (words : List CmdWord) (h : At c pm cache n s) : (runScriptInside words s).Meets
    (fun _ => At c pm cache (n + words.length)) (fun _ _ _ => True)
    (WaitsAt pm n (n + words.length)) := by
  have hwords := runWords_at (words.map BitVec.toNat) (h.setCaps [])
  rw [List.length_map] at hwords
  have hscript : (runCommandScript (words.map BitVec.toNat) s).Meets
      (fun _ => At c pm cache (n + words.length)) (fun _ _ _ => True) (WaitsAt pm n (n + words.length)) :=
    (hwords.record fun _ _ _ h => h).andThen fun _ _ h => h
  exact hscript.record fun _ _ _ h => h

/-- A part that waits at the scan after the `k`-th data scan of its sequence, in the controller state that
the sequence has there. -/
theorem WaitsAt.mem {seqPm : Nat → Pm} {lo hi m : Nat} {t : State} (h : WaitsAt pm lo hi t)
    (hn : m ≤ lo) (hpm : ∀ k, lo ≤ m + k → m + k < hi → seqPm k = pm) :
    ∃ k, drCount t.trace.dropLast = m + k ∧ t.pm = seqPm k := by
  have hlo := h.lo
  have hhi := h.hi
  refine ⟨drCount t.trace.dropLast - m, by omega, ?_⟩
  rw [h.pm, hpm _ (by omega) (by omega)]

theorem Run.Meets.waiting {α : Type} {P : α → State → Prop} {E : ErrKind → ErrInfo → State → Prop}
    {K K' : State → Prop} {r : Run α} (h : r.Meets P E K) (hK : ∀ s, K s → K' s) : r.Meets P E K' :=
  h.mono (fun _ _ h => h) (fun _ _ _ h => h) hK

theorem enterPm_of_two_le {k : Nat} (h : 2 ≤ k) : enterPm pm k = .programEnabled := by
  obtain ⟨j, rfl⟩ := Nat.exists_eq_add_of_le' h
  rfl

/-- The enter sequence: the controller after it, and at each scan that waits (42_program_mode R162). -/
theorem enterSequence_at (h : At c pm cache n s) : (enterSequence s).Meets
    (fun _ t => t.cfg = c ∧ t.pm = .commandsActive ∧ t.irCache = loaded c.irProgCommands)
    (fun _ _ _ => True)
    (fun t => ∃ k, drCount t.trace.dropLast = n + k ∧ t.pm = enterPm pm k) := by
  have before : ∀ k, n ≤ n + k → n + k < n + 1 → enterPm pm k = pm :=
    fun k _ hk => by rw [show k = 0 by omega, enterPm]
  have between : ∀ k, n + 1 ≤ n + k → n + k < n + 1 + 1 → enterPm pm k = .resetAsserted :=
    fun k _ hk => by rw [show k = 1 by omega, enterPm]
  have behind : ∀ k, n + 1 + 1 ≤ n + k → n + k < n + 1 + 1 + 1 → enterPm pm k = .programEnabled :=
    fun k hk _ => enterPm_of_two_le (by omega)
  refine ((ensureInstruction_at _ h).waiting fun t hw => hw.mem le_rfl before).andThen
    fun _ s hs => ?_
  refine ((writeData_at _ _ hs).waiting fun t hw => hw.mem le_rfl before).andThen fun _ s hs => ?_
  refine ((ensureInstruction_at _ (hs.setPm .resetAsserted)).waiting
    fun t hw => hw.mem (by omega) between).andThen fun _ s hs => ?_
  refine ((writeData_at _ _ hs).waiting fun t hw => hw.mem (by omega) between).andThen
    fun _ s hs => ?_
  refine ((ensureInstruction_at _ (hs.setPm .programEnabled)).waiting
    fun t hw => hw.mem (by omega) behind).andThen fun _ t ht => ?_
  exact ⟨ht.cfg, rfl, by rw [setPm_irCache, ht.cache, hs.cfg]⟩

/-- The exit sequence: the controller after it, and at each scan that waits (42_program_mode R165). -/
theorem exitSequence_at (h : At c pm cache n s) : (exitSequence s).Meets
    (fun _ t => t.cfg = c ∧ t.pm = .idle ∧ t.irCache = loaded c.irAvrReset)
    (fun _ _ _ => True)
    (fun t => ∃ k, drCount t.trace.dropLast = n + k ∧ t.pm = exitPm pm k) := by
  have before : ∀ {lo hi}, hi ≤ n + 2 + 1 → ∀ k, lo ≤ n + k → n + k < hi → exitPm pm k = pm :=
    fun hhi k _ hk => by rw [exitPm, if_pos (by omega)]
  have behind : ∀ {hi} k, n + 2 + 1 ≤ n + k → n + k < hi → exitPm pm k = .programDisabled :=
    fun k hk _ => by rw [exitPm, if_neg (by omega)]
  refine ((ensureInstruction_at _ h).waiting
    fun t hw => hw.mem le_rfl (before (by omega))).andThen fun _ s hs => ?_
  refine ((runScriptInside_at (seq2Words s.cfg.cmd.nop) hs).waiting
    fun t hw => hw.mem le_rfl (before (Nat.le_succ _))).andThen fun _ s hs => ?_
  refine ((ensureInstruction_at _ hs).waiting
    fun t hw => hw.mem (Nat.le_add_right _ _) (before le_rfl)).andThen fun _ s hs => ?_
  refine ((writeData_at _ _ hs).waiting
    fun t hw => hw.mem (Nat.le_add_right _ _) (before le_rfl)).andThen fun _ s hs => ?_
  have hcfg := hs.cfg
  refine ((ensureInstruction_at _ (hs.setPm .programDisabled)).waiting
    fun t hw => hw.mem (by show n ≤ n + 2 + 1; omega) behind).andThen fun _ s hs => ?_
  refine ((writeData_at _ _ hs).waiting
    fun t hw => hw.mem (by show n ≤ n + 2 + 1; omega) behind).andThen fun _ t ht => ?_
  exact ⟨ht.cfg, rfl, by rw [setPm_irCache, setPm_irCache, ht.cache, hcfg]⟩

end Position

/-! ### Where the controller stands at each end -/

/-- No raw part of an operation writes the configuration or the controller (42_program_mode R160). -/
theorem opClosed_controller (c : Config) (pm : Pm) : OpClosed fun s => s.cfg = c ∧ s.pm = pm where
  scan req s h := by rw [answerScan_issue]; exact h
  caps _ _ h := h
  forget _ h := h
  load _ _ _ _ _ _ _ h := h
  pollStart _ h := h
  pollNext _ h _ := h

/-- The on-error clause of the operations that move the controller (42_program_mode R162, R165). -/
theorem Run.Meets.toError {α : Type} {P : α → State → Prop} {E : ErrKind → ErrInfo → State → Prop}
    {K : State → Prop} {r : Run α} (h : r.Meets P E K) :
    (r.onError Machine.toError).Meets P (fun _ _ t => t.pm = .error) K :=
  h.onError fun _ _ _ _ => rfl

section Ends

variable {s : State}

theorem enterProgrammingMode_ends (hpm : s.pm = .idle) : (enterProgrammingMode s).Meets
    (fun _ t => t.cfg = s.cfg ∧ t.pm = .commandsActive ∧ t.irCache = loaded s.cfg.irProgCommands)
    (fun _ _ t => t.pm = .error)
    (fun t => ∃ k, drCount t.trace.dropLast = drCount s.trace + k ∧ t.pm = enterPm s.pm k) := by
  rw [enterProgrammingMode, if_neg (not_not.mpr hpm)]
  exact (enterSequence_at ⟨rfl, rfl, rfl, rfl⟩).toError

theorem exitProgrammingMode_ends (hpm : s.pm ≠ .idle) : (exitProgrammingMode s).Meets
    (fun _ t => t.cfg = s.cfg ∧ t.pm = .idle ∧ t.irCache = loaded s.cfg.irAvrReset)
    (fun _ _ t => t.pm = .error)
    (fun t => ∃ k, drCount t.trace.dropLast = drCount s.trace + k ∧ t.pm = exitPm s.pm k) := by
  rw [exitProgrammingMode, if_neg hpm]
  exact (exitSequence_at ⟨rfl, rfl, rfl, rfl⟩).toError

theorem exitProgrammingMode_idle (hpm : s.pm = .idle) :
    exitProgrammingMode s = .err .notActive {} s := by
  rw [exitProgrammingMode, if_pos hpm, raise_eq]

theorem readOperation_ends {words : List CmdWord} {extract : List CmdWord → List Byte}
    (hpm : s.pm = .commandsActive) : (readOperation true words extract s).Meets
    (fun _ t => t.pm = .commandsActive) (fun _ _ t => t.pm = .error)
    (fun t => t.pm = .commandsActive) := by
  rw [readOperation, if_neg (not_not.mpr hpm), if_neg nofun]
  have hphase := scriptPhase_keeps (opClosed_controller s.cfg .commandsActive) words ⟨rfl, hpm⟩
  exact (hphase.mono (fun _ _ h => h.2) (fun _ _ _ h => h) fun _ h => h.2).toError.andThen
    fun _ _ h => h

theorem writeOperation_ends {words : List CmdWord} {pollWord : CmdWord}
    (hpm : s.pm = .commandsActive) : (writeOperation true words pollWord s).Meets
    (fun _ t => t.pm = .commandsActive) (fun _ _ t => t.pm = .error)
    (fun t => t.pm = .commandsActive) := by
  rw [writeOperation, if_neg (not_not.mpr hpm), if_neg nofun]
  have hI := opClosed_controller s.cfg .commandsActive
  have hwork := (scriptPhase_keeps hI words ⟨rfl, hpm⟩).andThen fun _ _ h =>
    busyPoll_keeps hI pollWord h
  exact (hwork.mono (P' := fun _ t => t.pm = .commandsActive) (fun _ _ h => h.2) (fun _ _ _ h => h)
    fun _ h => h.2).toError.noData fun _ _ h => h

theorem pageReadBytes_length (c : Config) (caps : List CmdWord) :
    (pageReadBytes c caps).length = pageBytes c := by
  simp [pageReadBytes, pageBytes, List.length_flatMap, Nat.mul_comm]

theorem pageReadBody_ends {p : Nat} (hpm : s.pm = .commandsActive) : (pageReadBody p s).Meets
    (fun bytes t => (t.cfg = s.cfg ∧ t.pm = .commandsActive) ∧ bytes.length = pageBytes s.cfg)
    (fun _ _ t => t.pm = .error) (fun t => t.pm = .commandsActive) := by
  have hphase := scriptPhase_keeps (opClosed_controller s.cfg .commandsActive)
    (pageReadScript s.cfg p) ⟨rfl, hpm⟩
  refine (hphase.mono (fun _ _ h => h) (fun _ _ _ h => h) fun _ h => h.2).toError.andThen
    fun _ t h => ⟨h, ?_⟩
  rw [pageReadBytes_length, h.1]

theorem readPages_ends {c : Config} (left : Nat) : ∀ {p : Nat} {buf : List Byte} {s : State},
    s.cfg = c → s.pm = .commandsActive → (readPages left p buf s).Meets
      (fun bytes t => (t.cfg = c ∧ t.pm = .commandsActive) ∧
        bytes.length = buf.length + left * pageBytes c)
      (fun _ _ t => t.pm = .error) (fun t => t.pm = .commandsActive) := by
  induction left with
  | zero => exact fun hc hpm => ⟨⟨hc, hpm⟩, by rw [Nat.zero_mul, Nat.add_zero]⟩
  | succ left ih =>
    rintro p buf s rfl hpm
    refine (pageReadBody_ends hpm).andThen fun bytes t ht => ?_
    refine (ih ht.1.1 ht.1.2).mono (fun _ _ h => ⟨h.1, ?_⟩) (fun _ _ _ h => h) fun _ h => h
    rw [h.2, List.length_append, ht.2, Nat.succ_mul]
    omega

theorem readOperation_controller (valid : Bool) (words : List CmdWord)
    (extract : List CmdWord → List Byte) (s : State) : (readOperation valid words extract s).Meets
    (fun _ t => t.pm = s.pm) (fun _ _ t => t.pm = s.pm ∨ t.pm = .error) (fun t => t.pm = s.pm) := by
  by_cases hpm : s.pm = .commandsActive
  · cases valid with
    | false => rw [readOperation_invalid hpm]; exact .inl rfl
    | true => rw [hpm]; exact (readOperation_ends hpm).mono (fun _ _ h => h) (fun _ _ _ => .inr) fun _ h => h
  · rw [readOperation_inactive hpm]; exact .inl rfl

theorem writeOperation_controller (valid : Bool) (words : List CmdWord) (pollWord : CmdWord)
    (s : State) : (writeOperation valid words pollWord s).Meets
    (fun _ t => t.pm = s.pm) (fun _ _ t => t.pm = s.pm ∨ t.pm = .error) (fun t => t.pm = s.pm) := by
  by_cases hpm : s.pm = .commandsActive
  · cases valid with
    | false => rw [writeOperation_invalid hpm]; exact .inl rfl
    | true => rw [hpm]; exact (writeOperation_ends hpm).mono (fun _ _ h => h) (fun _ _ _ => .inr) fun _ h => h
  · rw [writeOperation_inactive hpm]; exact .inl rfl

/-! The checks of a range read, in their order (45_target_interface R282). -/

section RangeChecks

variable {b count : Nat}

theorem readFlashRange_noHandle (hdev : s.device = false) :
    readFlashRange b count s = .err .invalidTap {} s := by
  rw [readFlashRange, if_pos hdev, raise_eq]

variable (hdev : s.device = true)
include hdev

theorem readFlashRange_active (hpm : s.pm ≠ .idle) :
    readFlashRange b count s = .err .alreadyActive {} s := by
  rw [readFlashRange, if_neg (by simp [hdev]), if_pos hpm, raise_eq]

variable (hpm : s.pm = .idle)
include hpm

theorem readFlashRange_outside (hrange : rangeArgOk s.cfg b count = false) :
    readFlashRange b count s = .err .badArgument {} s := by
  rw [readFlashRange, if_neg (by simp [hdev]), if_neg (not_not.mpr hpm), if_pos hrange, raise_eq]

theorem readFlashRange_empty (hrange : rangeArgOk s.cfg b 0 = true) :
    readFlashRange b 0 s = .ok (.bytes []) s := by
  rw [readFlashRange, if_neg (by simp [hdev]), if_neg (not_not.mpr hpm), if_neg (by simp [hrange]),
    if_pos rfl]

end RangeChecks

/-- The pages that are read hold the whole range (45_target_interface R282). -/
theorem range_in_pages {c : Config} {b count : Nat} (hpages : 1 ≤ c.pageWords) (hcount : count ≠ 0) :
    b - firstPage c b * pageBytes c + count ≤
      (lastPage c b count - firstPage c b + 1) * pageBytes c := by
  have hP : 0 < pageBytes c := by unfold pageBytes; omega
  have hmono : firstPage c b ≤ lastPage c b count := Nat.div_le_div_right (by omega)
  have hlast : b + count - 1 < (lastPage c b count + 1) * pageBytes c :=
    Nat.lt_mul_of_div_lt (Nat.lt_succ_self _) hP
  have hfirst : firstPage c b * pageBytes c ≤ b := Nat.div_mul_le_self _ _
  rw [show lastPage c b count - firstPage c b + 1 = lastPage c b count + 1 - firstPage c b by omega,
    Nat.sub_mul]
  omega

theorem rangeSlice_length {c : Config} {b count : Nat} {buf : List Byte} (hpages : 1 ≤ c.pageWords)
    (hcount : count ≠ 0)
    (hbuf : buf.length = (lastPage c b count - firstPage c b + 1) * pageBytes c) :
    (rangeSlice c b count buf).length = count := by
  have hin := range_in_pages (b := b) hpages hcount
  rw [rangeSlice, List.length_take, List.length_drop, hbuf]
  omega

/-- A range read past its checks: `Idle` after a success, `Error` after a failure, and never `Error` while
it waits (45_target_interface R282, R285). -/
theorem readFlashRange_ends {b count : Nat} (hdev : s.device = true) (hpm : s.pm = .idle)
    (hrange : rangeArgOk s.cfg b count = true) : (readFlashRange b count s).Meets
    (fun data t => t.pm = .idle ∧
      ∃ bytes, data = .bytes bytes ∧ (1 ≤ s.cfg.pageWords → bytes.length = count))
    (fun _ _ t => t.pm = .error) (fun t => t.pm ≠ .error) := by
  rw [readFlashRange, if_neg (by simp [hdev]), if_neg (not_not.mpr hpm), if_neg (by simp [hrange])]
  split
  case isTrue hcount => exact ⟨hpm, [], rfl, fun _ => hcount.symm⟩
  case isFalse hcount =>
    refine ((enterProgrammingMode_ends hpm).waiting ?_).andThen fun _ t ht => ?_
    · rintro t ⟨k, -, hk⟩
      rw [hk, hpm]
      match k with
      | 0 | 1 | _ + 2 => nofun
    refine ((readPages_ends _ rfl ht.2.1).waiting fun _ h => by rw [h]; nofun).andThen
      fun buf u hu => ?_
    have hactive : u.pm ≠ .idle := by rw [hu.1.2]; nofun
    refine ((exitProgrammingMode_ends hactive).waiting ?_).andThen fun _ v hv => ?_
    · rintro v ⟨k, -, hk⟩
      rw [hk, hu.1.2, exitPm]
      split <;> nofun
    have hcfg : v.cfg = s.cfg := hv.1.trans (hu.1.1.trans ht.1)
    refine ⟨hv.2.1, _, rfl, fun hpages => ?_⟩
    have hbuf := hu.2
    rw [List.length_nil, Nat.zero_add, ht.1] at hbuf
    rw [hcfg]
    exact rangeSlice_length hpages hcount hbuf

end Ends

/-! ### What errors carry -/

section Errors

variable {α β : Type}

/-- Every error of the run is raised by a scan and carries no record: none is a `Timeout`
(60_exceptions R341). -/
def Run.ErrsPlainly (r : Run α) : Prop :=
  r.Meets (fun _ _ => True) (fun kind info _ => kind ≠ .timeout ∧ info = {}) fun _ => True

theorem Run.ErrsPlainly.andThen {r : Run α} {k : α → State → Run β} (h : r.ErrsPlainly)
    (hk : ∀ v s, (k v s).ErrsPlainly) : (r.andThen k).ErrsPlainly :=
  Run.Meets.andThen h fun v s _ => hk v s

theorem Run.ErrsPlainly.onError {clause : State → State} {r : Run α} (h : r.ErrsPlainly) :
    (r.onError clause).ErrsPlainly := Run.Meets.onError h fun _ _ _ hkind => hkind

theorem errsPlainly_ok (v : α) (s : State) : (Run.ok v s).ErrsPlainly := trivial

theorem raise_errsPlainly {kind : ErrKind} {s : State} (h : kind ≠ .timeout) :
    (raise kind s : Run α).ErrsPlainly := ⟨h, rfl⟩

end Errors

theorem scan_errsPlainly (req : Scan) (s : State) : (scan req s).ErrsPlainly := by
  rcases h : answerScan req s with ⟨a, t⟩
  rw [scan_eq h]
  cases a with
  | ok | silent => trivial
  | err e => exact raise_errsPlainly (kind := .transport e) nofun

theorem writeInstruction_errsPlainly (w v : Nat) (s : State) :
    (writeInstruction w v s).ErrsPlainly := by
  have hscan := scan_errsPlainly (.ir w (trunc w v)) s
  unfold writeInstruction
  split
  case isTrue => exact raise_errsPlainly nofun
  split
  case isTrue => exact raise_errsPlainly nofun
  split
  case isTrue => exact raise_errsPlainly nofun
  split <;> next hends => rw [hends] at hscan; exact hscan

theorem writeData_errsPlainly (w v : Nat) (s : State) : (writeData w v s).ErrsPlainly := by
  unfold writeData
  split
  case isTrue => exact raise_errsPlainly nofun
  split
  case isTrue => exact raise_errsPlainly nofun
  case isFalse => exact scan_errsPlainly _ s

theorem ensureInstruction_errsPlainly (d : Nat) (s : State) :
    (ensureInstruction d s).ErrsPlainly := by
  unfold ensureInstruction
  split
  case isTrue => exact errsPlainly_ok () s
  case isFalse => exact writeInstruction_errsPlainly _ _ s

theorem runWords_errsPlainly (words : List Nat) : ∀ s : State, (runWords words s).ErrsPlainly := by
  induction words with
  | nil => exact fun s => errsPlainly_ok () s
  | cons w words ih => exact fun s => (writeData_errsPlainly pcmdWidth w s).andThen fun _ _ => ih _

/-- The errors of a script are those of its scans, with the captures before them (41_command_executor
R143). -/
theorem runCommandScript_errs (words : List Nat) (s : State) : (runCommandScript words s).Meets
    (fun _ _ => True) (fun kind info _ => kind ≠ .timeout ∧ { info with partialCaps := none } = {})
    (fun _ => True) := by
  have hwords := Run.Meets.record (runWords_errsPlainly words { s with caps := [] })
    (f := fun s' info => { info with partialCaps := some s'.caps })
    (E' := fun kind info _ => kind ≠ .timeout ∧ { info with partialCaps := none } = {})
    fun kind info t h => ⟨h.1, by rw [h.2]⟩
  exact hwords.andThen fun _ _ _ => trivial

/-- A script inside another operation drops them (60_exceptions R341). -/
theorem runScriptInside_errsPlainly (words : List CmdWord) (s : State) :
    (runScriptInside words s).ErrsPlainly :=
  (runCommandScript_errs _ s).record fun _ _ _ h => h

theorem scriptPhase_errsPlainly (words : List CmdWord) (s : State) :
    (scriptPhase words s).ErrsPlainly :=
  (ensureInstruction_errsPlainly _ s).andThen fun _ _ => runScriptInside_errsPlainly words _

theorem enterProgrammingMode_errsPlainly (s : State) : (enterProgrammingMode s).ErrsPlainly := by
  unfold enterProgrammingMode
  split
  case isTrue => exact raise_errsPlainly nofun
  refine Run.ErrsPlainly.onError ((ensureInstruction_errsPlainly _ _).andThen fun _ _ => ?_)
  refine (writeData_errsPlainly _ _ _).andThen fun _ _ => ?_
  refine (ensureInstruction_errsPlainly _ _).andThen fun _ _ => ?_
  refine (writeData_errsPlainly _ _ _).andThen fun _ _ => ?_
  exact (ensureInstruction_errsPlainly _ _).andThen fun _ _ => errsPlainly_ok _ _

theorem exitProgrammingMode_errsPlainly (s : State) : (exitProgrammingMode s).ErrsPlainly := by
  unfold exitProgrammingMode
  split
  case isTrue => exact raise_errsPlainly nofun
  refine Run.ErrsPlainly.onError ((ensureInstruction_errsPlainly _ _).andThen fun _ _ => ?_)
  refine (runScriptInside_errsPlainly _ _).andThen fun _ _ => ?_
  refine (ensureInstruction_errsPlainly _ _).andThen fun _ _ => ?_
  refine (writeData_errsPlainly _ _ _).andThen fun _ _ => ?_
  refine (ensureInstruction_errsPlainly _ _).andThen fun _ _ => ?_
  exact (writeData_errsPlainly _ _ _).andThen fun _ _ => errsPlainly_ok _ _

theorem readOperation_errsPlainly (valid : Bool) (words : List CmdWord)
    (extract : List CmdWord → List Byte) (s : State) :
    (readOperation valid words extract s).ErrsPlainly := by
  unfold readOperation
  split
  case isTrue => exact raise_errsPlainly nofun
  split
  case isTrue => exact raise_errsPlainly nofun
  case isFalse =>
    exact (scriptPhase_errsPlainly words s).onError.andThen fun _ _ => errsPlainly_ok _ _

theorem readPages_errsPlainly (left : Nat) : ∀ (p : Nat) (buf : List Byte) (s : State),
    (readPages left p buf s).ErrsPlainly := by
  induction left with
  | zero => exact fun _ buf s => errsPlainly_ok buf s
  | succ left ih =>
    intro p buf s
    have hbody : (pageReadBody p s).ErrsPlainly :=
      (scriptPhase_errsPlainly _ s).onError.andThen fun _ _ => errsPlainly_ok _ _
    exact hbody.andThen fun _ _ => ih _ _ _

theorem readFlashRange_errsPlainly (b count : Nat) (s : State) :
    (readFlashRange b count s).ErrsPlainly := by
  unfold readFlashRange
  split
  case isTrue => exact raise_errsPlainly nofun
  split
  case isTrue => exact raise_errsPlainly nofun
  split
  case isTrue => exact raise_errsPlainly nofun
  split
  case isTrue => exact errsPlainly_ok _ _
  refine (enterProgrammingMode_errsPlainly s).andThen fun _ _ => ?_
  refine (readPages_errsPlainly _ _ _ _).andThen fun _ _ => ?_
  exact (exitProgrammingMode_errsPlainly _).andThen fun _ _ => errsPlainly_ok _ _

/-- The poll loop times out only after the whole budget (44_memory_ops R241). -/
theorem pollLoop_errs (pollWord : CmdWord) (left : Nat) : ∀ {s : State},
    s.polls + left = s.cfg.pollBudget → (pollLoop pollWord left s).Meets (fun _ _ => True)
      (fun kind info t => info = {} ∧ (kind = .timeout → t.polls = s.cfg.pollBudget))
      (fun _ => True) := by
  induction left with
  | zero => exact fun h => ⟨rfl, fun _ => h⟩
  | succ left ih =>
    intro s h
    have hfixed : ScanClosed fun t : State => True ∧ t.polls = s.polls ∧ t.cfg = s.cfg :=
      ScanClosed.fixed ⟨fun _ _ h => h, fun _ _ h => h⟩ s.polls s.cfg
    have herrs := runScriptInside_errsPlainly [pollWord] s
    have hkeeps := runScriptInside_keeps hfixed [pollWord] (s := s) ⟨trivial, rfl, rfl⟩
    rw [pollLoop]
    cases hrun : runScriptInside [pollWord] s with
    | stuck t => trivial
    | err kind info t =>
      rw [hrun] at herrs
      exact ⟨herrs.2, fun htimeout => absurd htimeout herrs.1⟩
    | ok cs t =>
      rw [hrun] at hkeeps
      obtain ⟨-, hpolls, hcfg⟩ := hkeeps
      simp only [Run.andThen_ok]
      split
      case isFalse => trivial
      case isTrue =>
        rw [← hcfg]
        refine ih (s := { t with polls := t.polls + 1 }) ?_
        show t.polls + 1 + left = t.cfg.pollBudget
        rw [hpolls, hcfg]
        omega

/-- What an error of a writing operation carries: no captures, no op code, and with a `Timeout` the whole
budget as its poll count (60_exceptions R340, R341). -/
def WriteErr (budget : Nat) (kind : ErrKind) (info : ErrInfo) : Prop :=
  info.partialCaps = none ∧ info.op = none ∧ (kind = .timeout → info = { polls := some budget })

theorem writeErr_of_plain {budget : Nat} {kind : ErrKind} {info : ErrInfo}
    (h : kind ≠ .timeout ∧ info = {}) : WriteErr budget kind info := by
  obtain ⟨hkind, rfl⟩ := h
  exact ⟨rfl, rfl, fun htimeout => absurd htimeout hkind⟩

theorem busyPoll_errs (pollWord : CmdWord) (s : State) : (busyPoll pollWord s).Meets
    (fun _ _ => True) (fun kind info _ => WriteErr s.cfg.pollBudget kind info) (fun _ => True) := by
  refine (pollLoop_errs pollWord s.cfg.pollBudget (s := { s with polls := 0 })
    (Nat.zero_add _)).record fun kind info t h => ?_
  obtain ⟨rfl, hpolls⟩ := h
  exact ⟨rfl, rfl, fun htimeout => by rw [hpolls htimeout]⟩

theorem writeOperation_errs (valid : Bool) (words : List CmdWord) (pollWord : CmdWord) (s : State) :
    (writeOperation valid words pollWord s).Meets (fun _ _ => True)
      (fun kind info _ => WriteErr s.cfg.pollBudget kind info) (fun _ => True) := by
  unfold writeOperation
  split
  case isTrue => exact writeErr_of_plain ⟨nofun, rfl⟩
  split
  case isTrue => exact writeErr_of_plain ⟨nofun, rfl⟩
  have hphase := scriptPhase_errsPlainly words s
  have hcfg := scriptPhase_keeps (opClosed_controller s.cfg s.pm) words ⟨rfl, rfl⟩
  refine Run.Meets.noData (P := fun _ _ => True)
    (Run.Meets.onError (E := fun kind info _ => WriteErr s.cfg.pollBudget kind info) ?_
      fun _ _ _ h => h) fun _ _ _ => trivial
  cases hrun : scriptPhase words s with
  | stuck t => trivial
  | err kind info t =>
    rw [hrun] at hphase
    exact writeErr_of_plain hphase
  | ok cs t =>
    rw [hrun] at hcfg
    have hpoll := busyPoll_errs pollWord t
    rwa [hcfg.1] at hpoll

end Sys2Proof.Machine

/-! PROOF. The controller at the host port (42_program_mode, 44_memory_ops section 1, 45_target_interface
sections 2 and 3, 60_exceptions section 5): where each instruction leaves `S.pm`, and what the host sees of
its errors and of its waiting. -/

namespace Sys2Proof.Machine

/-! ### Where an instruction leaves the controller -/

theorem movesPm_of_isMemoryOp {i : Instr} (h : isMemoryOp i = true) : movesPm i = true := by
  cases i
  case chipErase | flashPageWrite | flashPageRead | eepromWrite | eepromRead | fuseHighWrite
      | fuseLowWrite | lockWrite | fuseHighRead | fuseLowRead | lockRead | fusesLockRead
      | signatureRead | calibrationRead => rfl
  all_goals cases h

theorem InstrRun.controller_of_raw {i : Instr} {s : State} {r : Run OkData} (hr : InstrRun i s r)
    (hraw : movesPm i = false) : r.Keeps fun t => t.cfg = s.cfg ∧ t.pm = s.pm :=
  hr.keeps_of_raw (opClosed_controller s.cfg s.pm) (fun _ _ h => h) hraw ⟨rfl, rfl⟩

/-- A range read that a check ends leaves the state as it was; past its checks it ends in `Idle` or
`Error`, and waits in neither `Error` nor a state of its own (45_target_interface R282). -/
theorem readFlashRange_controller (b count : Nat) (s : State) : (readFlashRange b count s).Meets
    (fun _ t => t.pm = .idle) (fun _ _ t => t.pm = s.pm ∨ t.pm = .error)
    (fun t => t.pm ≠ .error) := by
  cases hdev : s.device with
  | false => rw [readFlashRange_noHandle hdev]; exact .inl rfl
  | true =>
    by_cases hpm : s.pm = .idle
    · cases hrange : rangeArgOk s.cfg b count with
      | false => rw [readFlashRange_outside hdev hpm hrange]; exact .inl rfl
      | true =>
        exact (readFlashRange_ends hdev hpm hrange).mono (fun _ _ h => h.1) (fun _ _ _ => .inr)
          fun _ h => h
    · rw [readFlashRange_active hdev hpm]; exact .inl rfl

/-- From a state of rest every run that is over leaves the controller in one (10_state R23). -/
theorem InstrRun.restPm {i : Instr} {s : State} {r : Run OkData} (hr : InstrRun i s r)
    (hrest : RestPm s.pm) :
    r.Meets (fun _ t => RestPm t.pm) (fun _ _ t => RestPm t.pm) fun _ => True := by
  have hsame : ∀ t : State, t.pm = s.pm → RestPm t.pm := fun t h => by rw [h]; exact hrest
  have herror : ∀ t : State, t.pm = .error → RestPm t.pm := fun _ h => .inr (.inr h)
  have hraw (h : movesPm i = false) :
      r.Meets (fun _ t => RestPm t.pm) (fun _ _ t => RestPm t.pm) fun _ => True :=
    (hr.controller_of_raw h).mono (fun _ t h => hsame t h.2) (fun _ _ t h => hsame t h.2)
      fun _ _ => trivial
  cases hr with
  | create h | load h | data h | ensure h | forget h | script h | status h => exact hraw h
  | enter =>
    by_cases hpm : s.pm = .idle
    · exact ((enterProgrammingMode_ends hpm).mono (fun _ t h => .inr (.inl h.2.1))
        (fun _ _ t => herror t) fun _ _ => trivial).noData fun _ _ h => h
    · rw [enterProgrammingMode_active hpm]; exact hrest
  | exit =>
    by_cases hpm : s.pm = .idle
    · rw [exitProgrammingMode_idle hpm]; exact hrest
    · exact ((exitProgrammingMode_ends hpm).mono (fun _ t h => .inl h.2.1)
        (fun _ _ t => herror t) fun _ _ => trivial).noData fun _ _ h => h
  | read =>
    exact (readOperation_controller _ _ _ s).mono (fun _ => hsame)
      (fun _ _ t h => h.elim (hsame t) (herror t)) fun _ _ => trivial
  | write =>
    exact (writeOperation_controller _ _ _ s).mono (fun _ => hsame)
      (fun _ _ t h => h.elim (hsame t) (herror t)) fun _ _ => trivial
  | range =>
    exact (readFlashRange_controller _ _ s).mono (fun _ t h => .inl h)
      (fun _ _ t h => h.elim (hsame t) (herror t)) fun _ _ => trivial

/-- Where the controller stands while the operation `i` that started in `s` waits at `t` (42_program_mode
R162, R165). -/
structure WaitsIn (i : Instr) (s t : State) : Prop where
  noError : t.pm = .error → s.pm = .error
  still : movesPm i = false ∨ isMemoryOp i = true → t.pm = s.pm
  enter : i = .enterProg → t.pm = enterPm s.pm (drCount t.trace.dropLast)
  exit : i = .exitProg → t.pm = exitPm s.pm (drCount t.trace.dropLast)

/-- An operation that is neither enter nor exit waits in the state it started in. -/
theorem waitsIn_of_same {i : Instr} {s t : State} (h : t.pm = s.pm) (henter : i ≠ .enterProg)
    (hexit : i ≠ .exitProg) : WaitsIn i s t :=
  ⟨fun he => h.symm.trans he, fun _ => h, fun he => absurd he henter, fun he => absurd he hexit⟩

theorem enterPm_ne_error {pm : Pm} (h : pm ≠ .error) : ∀ n, enterPm pm n ≠ .error
  | 0 => h
  | 1 | _ + 2 => nofun

theorem exitPm_ne_error {pm : Pm} (h : pm ≠ .error) (n : Nat) : exitPm pm n ≠ .error := by
  unfold exitPm
  split
  case isTrue => exact h
  case isFalse => nofun

theorem InstrRun.waitsIn {i : Instr} {s : State} {r : Run OkData} (hr : InstrRun i s r)
    (htrace : s.trace = []) :
    r.Meets (fun _ _ => True) (fun _ _ _ => True) (WaitsIn i s) := by
  have hraw (h : movesPm i = false) :
      r.Meets (fun _ _ => True) (fun _ _ _ => True) (WaitsIn i s) :=
    (hr.controller_of_raw h).mono (fun _ _ _ => trivial) (fun _ _ _ _ => trivial) fun t ht =>
      waitsIn_of_same ht.2 (fun he => by rw [he] at h; cases h) fun he => by rw [he] at h; cases h
  have hmem (h : isMemoryOp i = true) (t : State) (ht : t.pm = s.pm) : WaitsIn i s t :=
    waitsIn_of_same ht (fun he => by rw [he] at h; cases h) fun he => by rw [he] at h; cases h
  have hstart : drCount s.trace = 0 := by rw [htrace]; rfl
  cases hr with
  | create h | load h | data h | ensure h | forget h | script h | status h => exact hraw h
  | enter hi =>
    by_cases hpm : s.pm = .idle
    · refine ((enterProgrammingMode_ends hpm).mono (P' := fun _ _ => True) (fun _ _ _ => trivial)
        (fun _ _ _ _ => trivial) ?_).noData fun _ _ h => h
      rintro t ⟨k, hk, ht⟩
      rw [hstart, Nat.zero_add] at hk
      rw [← hk] at ht
      have hne : t.pm ≠ .error := ht ▸ enterPm_ne_error (by rw [hpm]; nofun) _
      subst hi
      exact ⟨fun he => absurd he hne, (by rintro (h | h) <;> cases h), fun _ => ht, nofun⟩
    · rw [enterProgrammingMode_active hpm]; trivial
  | exit hi =>
    by_cases hpm : s.pm = .idle
    · rw [exitProgrammingMode_idle hpm]; trivial
    · refine ((exitProgrammingMode_ends hpm).mono (P' := fun _ _ => True) (fun _ _ _ => trivial)
        (fun _ _ _ _ => trivial) ?_).noData fun _ _ h => h
      rintro t ⟨k, hk, ht⟩
      rw [hstart, Nat.zero_add] at hk
      rw [← hk] at ht
      subst hi
      refine ⟨fun he => ?_, (by rintro (h | h) <;> cases h), nofun, fun _ => ht⟩
      by_contra hne
      exact exitPm_ne_error hne _ (ht ▸ he)
  | read h =>
    exact (readOperation_controller _ _ _ s).mono (fun _ _ _ => trivial) (fun _ _ _ _ => trivial)
      (hmem h)
  | write h =>
    exact (writeOperation_controller _ _ _ s).mono (fun _ _ _ => trivial) (fun _ _ _ _ => trivial)
      (hmem h)
  | range _ _ hi =>
    refine (readFlashRange_controller _ _ s).mono (fun _ _ _ => trivial) (fun _ _ _ _ => trivial)
      fun t ht => ?_
    subst hi
    exact ⟨fun he => absurd he ht, (by rintro (h | h) <;> cases h), nofun, nofun⟩

/-! ### Invariant and waiting -/

/-- A run that waits runs as its instruction, so an instruction that has come to rest did not wait
(10_state R28). -/
theorem exec_restPm {i : Instr} {s t : State} (ht : exec i s = .next t) (hrest : RestPm s.pm)
    (hover : t.active = false) : RestPm t.pm := by
  obtain ⟨r, hrun, hinstr⟩ := exec_instrRun i s
  rw [hrun] at ht
  cases ht
  have hends := hinstr.restPm hrest
  have htraced := hinstr.traced
  cases r with
  | ok data u => exact hends
  | err kind info u => exact hends
  | stuck u =>
    have hbusy : u.active = true := by rw [State.active, htraced.run]; rfl
    exact absurd hover (by simp [hbusy])

theorem BlockInv.exec {i : Instr} {s t : State} (h : BlockInv s) (hrest : s.active = false)
    (ht : exec i s = .next t) : BlockInv t := by
  obtain ⟨r, hrun, hkeeps⟩ := exec_run running_opClosed (fun pm _ h => h.setPm pm)
    (fun s hfit h => ⟨h.busy, h.cacheBacked, fun _ => hfit, h.traceCounted, h.noResultYet,
      h.pollsBounded⟩) i (h.accept i)
  have hpm := exec_restPm ht (h.restPm hrest)
  rw [hrun] at ht
  cases ht
  cases r with
  | ok data u => exact Running.complete _ hkeeps (hpm rfl)
  | err kind info u => exact Running.complete _ hkeeps (hpm rfl)
  | stuck u => exact Running.waiting hkeeps

/-- Settles O57: a running operation keeps its part of the invariant at every scan, and ends in a state of
rest if it started in one. -/
theorem stepKeepsTheBlockInvariant : Obligations.StepKeepsTheBlockInvariant := by
  unfold Obligations.StepKeepsTheBlockInvariant
  intro s t h ht
  have htake : BlockInv s.takeInput := ⟨h.restPm, h.restClean, h.cacheBacked, h.handleBacked,
    h.traceCounted, h.noResultYet, h.pollsBounded⟩
  obtain ⟨-, ⟨-, -, rfl⟩ | ⟨-, rfl | ⟨hrest, rfl | ⟨op, rfl⟩ | ⟨i, hi⟩⟩⟩⟩ := step_cases ht
  case inl => exact h
  case inr.inl =>
    exact ⟨fun _ => .inl rfl, fun _ => ⟨rfl, rfl, rfl⟩, nofun, nofun, nofun, nofun, Nat.zero_le _⟩
  case inr.inr.inl =>
    exact ⟨h.restPm, h.restClean, nofun, h.handleBacked, h.traceCounted, h.noResultYet,
      h.pollsBounded⟩
  case inr.inr.inr.inl =>
    exact ⟨fun _ => h.restPm hrest, fun _ => ⟨rfl, rfl, rfl⟩, h.cacheBacked, h.handleBacked, nofun,
      nofun, Nat.zero_le _⟩
  case inr.inr.inr.inr => exact htake.exec hrest hi

/-- A run and the answers to its trace: it waits at a silent last scan, or every scan was answered
(60_exceptions R347). -/
theorem answerScans_of_accept {i : Instr} {reqs : List Scan} {s : State} :
    (answerScans reqs (accept i s)).1 = (answerScans reqs s).1 := by
  rcases h : answerScans reqs s with ⟨as, t⟩
  rw [answerScans_accept h]

/-- Settles O8: a run that waits waits at the last scan of its trace, and the clauses for a block that
waits are those of `Waiting` and of the controller at each scan. -/
theorem unansweredScanHasNoFinalState : Obligations.UnansweredScanHasNoFinalState := by
  unfold Obligations.UnansweredScanHasNoFinalState
  refine ⟨fun i s t ht => ?run, fun s t w v hb h1 h32 h => ?writeDr, fun s => step_stuck⟩
  case writeDr =>
    rw [exec_writeDr, writeData_eq (s := accept (.writeDr w v) s) hb h1 h32 (answerScan_accept h)]
    rfl
  case run =>
    obtain ⟨r, hrun, hinstr⟩ := exec_instrRun i s
    rw [hrun] at ht
    cases ht
    have htraced := hinstr.traced
    have hwaits := hinstr.waitsIn rfl
    have hover (u : State) (hu : Over (accept i s) u) (res : Result) :
        ¬ Answer.silent ∈ (answerScans (complete res u).trace s).1 := by
      obtain ⟨as, hsilent, has⟩ := hu
      rw [complete_trace, ← answerScans_of_accept (i := i), has]
      exact hsilent
    cases r with
    | ok data u => exact ⟨⟨nofun, fun h => absurd h (hover u htraced _)⟩, nofun⟩
    | err kind info u => exact ⟨⟨nofun, fun h => absurd h (hover u htraced _)⟩, nofun⟩
    | stuck u =>
      obtain ⟨cs, hcs⟩ := htraced.ans
      have hans : (answerScans u.trace s).1 = oks cs ++ [.silent] := by
        rw [← answerScans_of_accept (i := i), hcs]
      have hbusy : u.active = true := by rw [State.active, htraced.run]; rfl
      rw [finish_stuck, hans]
      refine ⟨iff_of_true hbusy (by simp), fun _ => ?_⟩
      exact ⟨htraced.run, htraced.pos, htraced.res, ⟨cs, rfl⟩, htraced.cache, htraced.dev,
        hwaits.noError, hwaits.still, hwaits.enter, hwaits.exit⟩

/-! ### Program mode -/

theorem exec_exitProg (s : State) : exec .exitProg s =
    runOperation .exitProg (fun s => (exitProgrammingMode s).noData) s := rfl

theorem enterProgrammingMode_eq {s : State} (hpm : s.pm = .idle) :
    enterProgrammingMode s = (enterSequence s).onError toError := by
  rw [enterProgrammingMode, if_neg (not_not.mpr hpm)]

theorem exitProgrammingMode_eq {s : State} (hpm : s.pm ≠ .idle) :
    exitProgrammingMode s = (exitSequence s).onError toError := by
  rw [exitProgrammingMode, if_neg hpm]

/-- Settles O26: the enter sequence with every scan answered, between acceptance and end. -/
theorem enterProgCompletes : Obligations.EnterProgCompletes := by
  unfold Obligations.EnterProgCompletes
  intro s t captured hfit hw hpm h
  have hrun := enterSequence_ok (s := accept .enterProg s) hfit hw (answerScans_accept h)
  rw [exec_enterProg, runOperation, enterProgrammingMode_eq (s := accept _ s) hpm, hrun]
  rfl

/-- Settles O27: the exit sequence with every scan answered, between acceptance and end. -/
theorem exitProgCompletes : Obligations.ExitProgCompletes := by
  unfold Obligations.ExitProgCompletes
  intro s t captured hfit hw hcmd hpm h
  obtain ⟨caps, hrun⟩ :=
    exitSequence_ok (s := accept .exitProg s) hfit hw hcmd (answerScans_accept h)
  rw [exec_exitProg, runOperation, exitProgrammingMode_eq (s := accept _ s) hpm, hrun]
  rfl

/-- What `ENTER_PROG` leaves, by its result (42_program_mode R162 to R164). -/
theorem exec_enterProg_ends {s t : State} (ht : exec .enterProg s = .next t) :
    (∀ data, t.result = some (.ok data) → s.pm = .idle ∧ data = .empty ∧
      t.pm = .commandsActive ∧ t.irCache = loaded s.cfg.irProgCommands) ∧
    ∀ kind info, t.result = some (.err kind info) → s.pm = .idle → t.pm = .error := by
  rw [exec_enterProg, runOperation] at ht
  cases ht
  have hend := traced_end (noData_traced (enterProgrammingMode_traced (accept_going .enterProg s)))
  by_cases hpm : s.pm = .idle
  · have hrun := enterProgrammingMode_ends (s := accept .enterProg s) hpm
    obtain ⟨hok, herr, -⟩ := finish_ends (P := fun data t => data = .empty ∧
      t.pm = .commandsActive ∧ t.irCache = loaded s.cfg.irProgCommands) hend
      (hrun.noData fun _ _ h => ⟨rfl, h.2⟩) (fun _ _ _ h => h) fun _ _ _ _ h => h
    exact ⟨fun data h => ⟨hpm, hok data h⟩, fun kind info h _ => herr kind info h⟩
  · rw [enterProgrammingMode_active (s := accept .enterProg s) hpm]
    exact ⟨nofun, fun _ _ _ hidle => absurd hidle hpm⟩

/-- What `EXIT_PROG` leaves, by its result (42_program_mode R165, R166). -/
theorem exec_exitProg_ends {s t : State} (ht : exec .exitProg s = .next t) :
    (∀ data, t.result = some (.ok data) → s.pm ≠ .idle ∧ data = .empty ∧
      t.pm = .idle ∧ t.irCache = loaded s.cfg.irAvrReset) ∧
    ∀ kind info, t.result = some (.err kind info) → s.pm ≠ .idle → t.pm = .error := by
  rw [exec_exitProg, runOperation] at ht
  cases ht
  have hend := traced_end (noData_traced (exitProgrammingMode_traced (accept_going .exitProg s)))
  by_cases hpm : s.pm = .idle
  · rw [exitProgrammingMode_idle (s := accept .exitProg s) hpm]
    exact ⟨nofun, fun _ _ _ hidle => absurd hpm hidle⟩
  · have hrun := exitProgrammingMode_ends (s := accept .exitProg s) hpm
    obtain ⟨hok, herr, -⟩ := finish_ends (P := fun data t => data = .empty ∧
      t.pm = .idle ∧ t.irCache = loaded s.cfg.irAvrReset) hend
      (hrun.noData fun _ _ h => ⟨rfl, h.2⟩) (fun _ _ _ h => h) fun _ _ _ _ h => h
    exact ⟨fun data h => ⟨hpm, hok data h⟩, fun kind info h _ => herr kind info h⟩

/-- Settles O29: a success of enter opens the session, from which the exit sequence runs, and its ends are
those of `EXIT_PROG`. -/
theorem exitAfterEnterReturnsToIdle : Obligations.ExitAfterEnterReturnsToIdle := by
  unfold Obligations.ExitAfterEnterReturnsToIdle
  intro s t hfit hw hcmd ht hok
  obtain ⟨-, -, hpm, -⟩ := (exec_enterProg_ends ht).1 _ hok
  have hcfg : t.cfg = s.cfg :=
    exec_keeps_env (J := fun c _ _ => c = s.cfg) (fun _ _ h => h) rfl ht
  have hactive : t.pm ≠ .idle := by rw [hpm]; nofun
  obtain ⟨u, hu⟩ := exec_next .exitProg t
  refine ⟨hpm, u, hu, fun captured hcaps => ?_, fun e info h => ?_⟩
  · rcases hans : answerScans (exitTrace t) t with ⟨as, m⟩
    rw [hans] at hcaps
    rw [show as = oks captured from hcaps] at hans
    have hfit' : TapFits t := by rw [TapFits, hcfg]; exact hfit
    have hexit := exitProgCompletes t m captured hfit' (hcfg ▸ hw) (by rw [hcfg, hcmd]) hactive hans
    rw [hu] at hexit
    cases hexit
    exact ⟨rfl, rfl⟩
  · exact (exec_exitProg_ends hu).2 _ _ h hactive

/-- Settles O30: the ends of the two sequences, by their results. -/
theorem failedTransitionLeavesError : Obligations.FailedTransitionLeavesError := by
  unfold Obligations.FailedTransitionLeavesError
  exact fun s t => ⟨fun ht => (exec_enterProg_ends ht).symm, fun ht => (exec_exitProg_ends ht).symm⟩

/-- Settles O31: the check of the controller comes first in each of these operations. -/
theorem operationsRejectedByTheControllerState :
    Obligations.OperationsRejectedByTheControllerState := by
  unfold Obligations.OperationsRejectedByTheControllerState
  refine fun s => ⟨fun hpm => secondEnterRejected s (by rw [hpm]; nofun), fun hpm => ?_,
    fun i hi hpm => ?_⟩
  · rw [exec_exitProg]
    apply runOperation_of_check
    rw [exitProgrammingMode_idle (s := accept .exitProg s) hpm, Run.noData_err]
  · obtain ⟨op, hexec, hrun⟩ := exec_memoryOp hi s
    rw [hexec]
    apply runOperation_of_check
    generalize op (accept i s) = r at hrun
    cases hrun with
    | read => exact readOperation_inactive (s := accept i s) hpm
    | write => exact writeOperation_inactive (s := accept i s) hpm

/-- Settles O32: no raw run writes the controller, however it ends. -/
theorem rawOperationsKeepTheControllerState : Obligations.RawOperationsKeepTheControllerState := by
  unfold Obligations.RawOperationsKeepTheControllerState
  intro i s t hraw ht
  obtain ⟨r, hrun, hinstr⟩ := exec_instrRun i s
  rw [hrun] at ht
  cases ht
  exact ((hinstr.controller_of_raw hraw).finish fun _ _ h => h).2

/-! ### Errors of the memory operations -/

/-- The errors of an instruction: a `Timeout` is a writing operation's (60_exceptions R340). -/
theorem InstrRun.errs {i : Instr} {s : State} {r : Run OkData} (hr : InstrRun i s r) : r.Meets
    (fun _ _ => True)
    (fun kind info _ => kind = .timeout →
      isWriteOp i = true ∧ info = { polls := some s.cfg.pollBudget })
    (fun _ => True) := by
  have hplain {α : Type} {r : Run α} (h : r.ErrsPlainly) : r.Meets (fun _ _ => True)
      (fun kind info _ => kind = .timeout →
        isWriteOp i = true ∧ info = { polls := some s.cfg.pollBudget }) (fun _ => True) :=
    h.mono (fun _ _ h => h) (fun _ _ _ h htimeout => absurd htimeout h.1) fun _ h => h
  cases hr with
  | create =>
    refine Run.Meets.noData (P := fun _ _ => True) (hplain ?_) fun _ _ _ => trivial
    unfold createHandle
    split
    case isTrue => exact raise_errsPlainly nofun
    split
    case isTrue => exact raise_errsPlainly nofun
    case isFalse => exact errsPlainly_ok _ _
  | load => exact (hplain (writeInstruction_errsPlainly _ _ s)).noData fun _ _ _ => trivial
  | data => exact (hplain (writeData_errsPlainly _ _ s)).andThen fun _ _ _ => trivial
  | ensure => exact (hplain (ensureInstruction_errsPlainly _ s)).noData fun _ _ _ => trivial
  | forget | status => trivial
  | script =>
    refine Run.Meets.andThen ((runCommandScript_errs _ s).mono (fun _ _ h => h)
      (fun _ _ _ h htimeout => absurd htimeout h.1) fun _ h => h) fun _ _ _ => trivial
  | enter => exact (hplain (enterProgrammingMode_errsPlainly s)).noData fun _ _ _ => trivial
  | exit => exact (hplain (exitProgrammingMode_errsPlainly s)).noData fun _ _ _ => trivial
  | read => exact hplain (readOperation_errsPlainly _ _ _ s)
  | write _ hwrite =>
    exact (writeOperation_errs _ _ _ s).mono (fun _ _ h => h)
      (fun _ _ _ h htimeout => ⟨hwrite, h.2.2 htimeout⟩) fun _ h => h
  | range => exact hplain (readFlashRange_errsPlainly _ _ s)

/-- Settles O44: of all runs only those of the writing operations poll. -/
theorem onlyWritesTimeOut : Obligations.OnlyWritesTimeOut := by
  unfold Obligations.OnlyWritesTimeOut
  intro i s t info ht hresult
  obtain ⟨r, hrun, hinstr⟩ := exec_instrRun i s
  rw [hrun] at ht
  cases ht
  obtain ⟨-, herr, -⟩ := finish_ends hinstr.traced hinstr.errs (fun _ _ _ h => h)
    fun _ _ _ _ h => h
  exact herr _ _ hresult rfl

theorem Run.Meets.both {α : Type} {P P' : α → State → Prop}
    {E E' : ErrKind → ErrInfo → State → Prop} {K K' : State → Prop} {r : Run α} (h : r.Meets P E K)
    (h' : r.Meets P' E' K') : r.Meets (fun v s => P v s ∧ P' v s)
      (fun kind info s => E kind info s ∧ E' kind info s) (fun s => K s ∧ K' s) := by
  cases r <;> exact ⟨h, h'⟩

/-- A memory operation past its checks: the controller at its ends, and what its errors carry
(44_memory_ops R242). -/
theorem InstrRun.memory_ends {i : Instr} {s : State} {r : Run OkData} (hr : InstrRun i s r)
    (hi : isMemoryOp i = true) (hpm : s.pm = .commandsActive) (hargs : argsOk s.cfg i = true) :
    r.Meets (fun _ t => t.pm = .commandsActive)
      (fun _ info t => t.pm = .error ∧ info.partialCaps = none ∧ info.op = none ∧
        (isWriteOp i = false → info.polls = none)) (fun _ => True) := by
  have hmoves := movesPm_of_isMemoryOp hi
  cases hr with
  | create h | load h | data h | ensure h | forget h | script h | status h =>
    rw [h] at hmoves; cases hmoves
  | enter h | exit h | range _ _ h => subst h; cases hi
  | read =>
    rw [hargs]
    exact (readOperation_ends hpm).both (readOperation_errsPlainly _ _ _ s) |>.mono
      (fun _ _ h => h.1) (fun kind info t h => ⟨h.1, by simp [h.2.2]⟩) fun _ _ => trivial
  | write _ hwrite =>
    rw [hargs]
    exact (writeOperation_ends hpm).both (writeOperation_errs _ _ _ s) |>.mono
      (fun _ _ h => h.1) (fun kind info t h => ⟨h.1, h.2.1, h.2.2.1, by simp [hwrite]⟩)
      fun _ _ => trivial

/-- Settles O41: past the checks the skeleton's on-error clause moves the controller, and no script inside
a memory operation hands its captures on. -/
theorem failedMemoryOperationLeavesError : Obligations.FailedMemoryOperationLeavesError := by
  unfold Obligations.FailedMemoryOperationLeavesError
  intro i s t hi hpm hvalid ht
  obtain ⟨r, hrun, hinstr⟩ := exec_instrRun i s
  rw [hrun] at ht
  cases ht
  have hends := hinstr.memory_ends hi hpm (argsOk_iff.mpr hvalid)
  obtain ⟨hok, herr, -⟩ := finish_ends hinstr.traced hends (fun _ _ _ h => h) fun _ _ _ _ h => h
  exact ⟨herr, hok⟩

/-! ### Range reads -/

theorem exec_readFlashRange (b count : Nat) (s : State) : exec (.readFlashRange b count) s =
    runOperation (.readFlashRange b count) (readFlashRange b count) s := rfl

theorem rangeArgOk_iff {c : Config} {b count : Nat} :
    rangeArgOk c b count = true ↔ b + count ≤ 2 * c.flashWords := decide_eq_true_iff

/-- Settles O47: each clause is one check of the range read, or its empty range. -/
theorem flashRangeChecksInOrder : Obligations.FlashRangeChecksInOrder := by
  unfold Obligations.FlashRangeChecksInOrder
  intro b count s
  rw [exec_readFlashRange]
  refine ⟨fun hdev => ?_, fun hdev hpm => ?_, fun hdev hpm hrange => ?_, fun hdev hpm hb hcount => ?_⟩
  · exact runOperation_of_check (readFlashRange_noHandle (s := accept _ s) hdev)
  · exact runOperation_of_check (readFlashRange_active (s := accept _ s) hdev hpm)
  · refine runOperation_of_check (readFlashRange_outside (s := accept _ s) hdev hpm ?_)
    exact Bool.eq_false_of_not_eq_true fun h => absurd (rangeArgOk_iff.mp h) (by simpa using hrange)
  · subst hcount
    exact runOperation_of_ok (readFlashRange_empty (s := accept _ s) hdev hpm (rangeArgOk_iff.mpr hb))

/-- Settles O48: the ends of a range read past its checks. -/
theorem flashRangeLeavesNoSession : Obligations.FlashRangeLeavesNoSession := by
  unfold Obligations.FlashRangeLeavesNoSession
  intro b count s t hpages hdev hpm hrange ht
  rw [exec_readFlashRange] at ht
  cases ht
  have hends := readFlashRange_ends (s := accept (.readFlashRange b count) s) hdev hpm
    (rangeArgOk_iff.mpr hrange)
  have htraced := traced_end (readFlashRange_traced b count (accept_going (.readFlashRange b count) s))
  obtain ⟨hok, herr, -⟩ := finish_ends htraced hends (fun _ _ _ h => h) fun _ _ _ _ h => h
  refine ⟨fun data h => ?_, herr⟩
  obtain ⟨hidle, bytes, hdata, hlen⟩ := hok data h
  exact ⟨hidle, bytes, hdata, hlen hpages⟩

end Sys2Proof.Machine

/-! PROOF. Scripts and the scan rows of the opcode table (41_command_executor section 1, 30_encoding
section 2, 43_command_words): each row is one scan of its configured code or word. -/

namespace Sys2Proof.Machine

/-! ### The cache -/

/-- A load that succeeds caches the low 4 bits, after at most one scan (40_scan_primitives R111, R115). -/
theorem exec_ensureIr_ok {d : Nat} {s t : State} (ht : exec (.ensureIr d) s = .next t)
    (hok : t.result = some (.ok .empty)) : t.irCache = loaded d ∧ t.trace.length ≤ 1 := by
  by_cases hhit : s.irCache = loaded d
  · rw [exec_ensureIr_hit hhit] at ht
    cases ht
    exact ⟨hhit, Nat.zero_le _⟩
  rw [exec_ensureIr_miss hhit] at ht
  cases hb : s.cfg.tapBound with
  | false => rw [loadRun_unbound hb] at ht; cases ht; cases hok
  | true =>
    by_cases hw : (4 : Nat) = s.cfg.tapIrLen
    · have hcut : d % 16 % 2 ^ 4 = d % 16 := Nat.mod_mod d 16
      rcases h : answerScan (.ir 4 (d % 16 % 2 ^ 4)) s with ⟨_ | _ | _, u⟩
      case ok =>
        rw [loadRun_ok hb (by decide) (by decide) hw h, hcut] at ht
        cases ht
        exact ⟨rfl, le_rfl⟩
      case err =>
        rw [loadRun_err hb (by decide) (by decide) hw h] at ht
        cases ht
        cases hok
      case silent =>
        rw [loadRun_silent hb (by decide) (by decide) hw h] at ht
        cases ht
        cases hok
    · rw [loadRun_mismatch hb (by decide) (by decide) hw] at ht
      cases ht
      cases hok

/-- Settles O16: a success caches the code's low 4 bits, so the repeated call hits. -/
theorem repeatedEnsureIssuesNoScan : Obligations.RepeatedEnsureIssuesNoScan := by
  unfold Obligations.RepeatedEnsureIssuesNoScan
  intro d d' s t u ht hok hcache hd
  obtain ⟨hloaded, hlen⟩ := exec_ensureIr_ok ht hok
  refine ⟨hlen, exec_ensureIr_hit ?_⟩
  rw [hcache, hloaded, loaded, loaded, hd]

/-! ### Scripts -/

theorem exec_runScript_ok {words captured : List Nat} {s t : State} (hb : s.cfg.tapBound = true)
    (h : answerScans (drScans (words.map (· % 2 ^ 15))) s = (oks captured, t)) :
    exec (.runScript words) s = .next (ended t (drScans (words.map (· % 2 ^ 15)))
      (.ok (.captures (captured.map (BitVec.ofNat 15))))) := by
  have hrun := runCommandScript_ok (s := accept (.runScript words) s) hb (answerScans_accept h)
  rw [exec_runScript, runScriptOperation, hrun]
  rfl

/-- Settles O17: the script with every scan answered, and the two scripts that scan nothing. -/
theorem runScriptReturnsEveryCapture : Obligations.RunScriptReturnsEveryCapture := by
  unfold Obligations.RunScriptReturnsEveryCapture
  refine ⟨fun s => rfl, fun s w words hb => ?_, fun s t words captured => exec_runScript_ok⟩
  have hword := writeData_unbound (w := pcmdWidth) (v := w)
    (s := { accept (.runScript (w :: words)) s with caps := [] }) hb
  rw [exec_runScript, runScriptOperation, runCommandScript, runWords, hword]
  rfl

/-! ### IR rows -/

/-- The configured code of an IR row (30_encoding R83). -/
def rowCode (c : Config) : Instr → Option Nat
  | .irAvrReset => some c.irAvrReset
  | .irProgEnable => some c.irProgEnable
  | .irProgCommands => some c.irProgCommands
  | _ => none

theorem exec_irRow {i : Instr} {code : Nat} {s : State} (h : rowCode s.cfg i = some code) :
    exec i s = loadRun i 4 code s := by
  cases i
  case irAvrReset | irProgEnable | irProgCommands => cases h; rfl
  all_goals cases h

/-- Settles O21: a row's run is the load of its code, under its own name. -/
theorem irRowsScanTheirCode : Obligations.IrRowsScanTheirCode := by
  unfold Obligations.IrRowsScanTheirCode
  intro s p hp
  have hrow : exec p.1 s = loadRun p.1 4 p.2 s := by
    simp only [List.mem_cons, List.not_mem_nil, or_false] at hp
    rcases hp with rfl | rfl | rfl <;> exact exec_irRow rfl
  rw [hrow]
  exact ⟨loadRun_eq_runningAs _ _ _ s,
    fun c t hfit h => loadRun_ok hfit.1 (by decide) (by decide) hfit.2.symm h⟩

/-! ### Command-word rows -/

/-- The configured word of a command-word row, its operand bits filled in (43_command_words R190). -/
def rowWord (cmd : Cmd) : Instr → Option CmdWord
  | .ceSeq0 => some cmd.ceSeq.w0
  | .ceSeq1 => some cmd.ceSeq.w1
  | .ceSeq2 => some cmd.ceSeq.w2
  | .ceSeq3 => some cmd.ceSeq.w3
  | .cePoll => some cmd.cePoll
  | .fwEnter => some cmd.fwEnter
  | .addrHi b => some (addrHiWord cmd b)
  | .addrLo b => some (addrLoWord cmd b)
  | .dataLo b => some (dataLoWord cmd b)
  | .dataHi b => some (dataHiWord cmd b)
  | .latch0 => some cmd.latch.w0
  | .latch1 => some cmd.latch.w1
  | .latch2 => some cmd.latch.w2
  | .fwWrite0 => some cmd.fwWrite.w0
  | .fwWrite1 => some cmd.fwWrite.w1
  | .fwWrite2 => some cmd.fwWrite.w2
  | .fwWrite3 => some cmd.fwWrite.w3
  | .fwPoll => some cmd.fwPoll
  | .frEnter => some cmd.frEnter
  | .frRead0 => some cmd.frRead.w0
  | .frRead1 => some cmd.frRead.w1
  | .frRead2 => some cmd.frRead.w2
  | .ewEnter => some cmd.ewEnter
  | .ewWrite0 => some cmd.ewWrite.w0
  | .ewWrite1 => some cmd.ewWrite.w1
  | .ewWrite2 => some cmd.ewWrite.w2
  | .ewWrite3 => some cmd.ewWrite.w3
  | .ewPoll => some cmd.ewPoll
  | .erEnter => some cmd.erEnter
  | .erRead0 b => some (erReadWord cmd b)
  | .erRead1 => some cmd.erRead.w1
  | .erRead2 => some cmd.erRead.w2
  | .fuEnter => some cmd.fuEnter
  | .fuhWrite0 => some cmd.fuhWrite.w0
  | .fuhWrite1 => some cmd.fuhWrite.w1
  | .fuhWrite2 => some cmd.fuhWrite.w2
  | .fuhWrite3 => some cmd.fuhWrite.w3
  | .fuhPoll => some cmd.fuhPoll
  | .fulWrite0 => some cmd.fulWrite.w0
  | .fulWrite1 => some cmd.fulWrite.w1
  | .fulWrite2 => some cmd.fulWrite.w2
  | .fulWrite3 => some cmd.fulWrite.w3
  | .fulPoll => some cmd.fulPoll
  | .lkEnter => some cmd.lkEnter
  | .lkData b => some (lkDataWord cmd b)
  | .lkWrite0 => some cmd.lkWrite.w0
  | .lkWrite1 => some cmd.lkWrite.w1
  | .lkWrite2 => some cmd.lkWrite.w2
  | .lkWrite3 => some cmd.lkWrite.w3
  | .lkPoll => some cmd.lkPoll
  | .flrEnter => some cmd.flrEnter
  | .fuhRead0 => some cmd.fuhRead.w0
  | .fuhRead1 => some cmd.fuhRead.w1
  | .fulRead0 => some cmd.fulRead.w0
  | .fulRead1 => some cmd.fulRead.w1
  | .lkRead0 => some cmd.lkRead.w0
  | .lkRead1 => some cmd.lkRead.w1
  | .flrAll0 => some cmd.flrAll.w0
  | .flrAll1 => some cmd.flrAll.w1
  | .flrAll2 => some cmd.flrAll.w2
  | .flrAll3 => some cmd.flrAll.w3
  | .sigEnter => some cmd.sigEnter
  | .sigRead0 => some cmd.sigRead.w0
  | .sigRead1 => some cmd.sigRead.w1
  | .calEnter => some cmd.calEnter
  | .calRead0 => some cmd.calRead.w0
  | .calRead1 => some cmd.calRead.w1
  | .nop0 => some cmd.nop.w0
  | .nop1 => some cmd.nop.w1
  | _ => none

theorem exec_row {i : Instr} {word : CmdWord} {s : State} (h : rowWord s.cfg.cmd i = some word) :
    exec i s = .next (finish (shiftWord word (accept i s))) := by
  cases i
  case create | writeIr | writeDr | ensureIr | invalidateIr | runScript | enterProg | exitProg
      | chipErase | flashPageWrite | flashPageRead | eepromWrite | eepromRead | fuseHighWrite
      | fuseLowWrite | lockWrite | fuseHighRead | fuseLowRead | lockRead | fusesLockRead
      | signatureRead | calibrationRead | readFlashRange | readStatus | irAvrReset | irProgEnable
      | irProgCommands => cases h
  all_goals cases h; rfl

/-- A row shifts the word that the reference table holds at its place. -/
theorem shiftsWord_of_rowWord {i : Instr} {n : Nat}
    (h : (rowWord referenceCmd i).map BitVec.toNat = some n) : ShiftsWord i n := by
  intro s t c hb hcmd hans
  obtain ⟨word, hword, rfl⟩ := Option.map_eq_some_iff.mp h
  have hcut : [word.toNat].map (· % 2 ^ 15) = [word.toNat] := map_toNat_trunc [word]
  have hscan : answerScans (drScans ([word.toNat].map (· % 2 ^ 15))) s = (oks [c], t) := by
    rw [hcut]
    exact answerScans_of_cons hans rfl
  have hrun := runCommandScript_ok (s := accept i s) hb (answerScans_accept hscan)
  rw [hcut] at hrun
  rw [exec_row (hcmd ▸ hword), shiftWord, runScriptOperation, hrun]
  rfl

/-- A base with an empty operand field holds the operand as it is (30_encoding R90). -/
theorem wordWith_toNat {base : CmdWord} (op7 : BitVec 7) (hbase : base = op7 ++ (0 : Byte)) (b : Byte) :
    (wordWith base b).toNat = base.toNat + b.toNat := by
  have hb := b.isLt
  rw [hbase, wordWith_append, BitVec.toNat_append, BitVec.toNat_append,
    ← Nat.shiftLeft_add_eq_or_of_lt hb]
  simp

theorem wordWith_lock_toNat (b : BitVec 6) :
    (wordWith 0x13C0 (b.setWidth 8)).toNat = 0x13C0 + b.toNat := by
  revert b
  decide

/-- Settles O22: the reference table's words at these places. -/
theorem eraseAddressAndDataRowsShiftTheirWord :
    Obligations.EraseAddressAndDataRowsShiftTheirWord := by
  unfold Obligations.EraseAddressAndDataRowsShiftTheirWord
  refine ⟨fun p hp => shiftsWord_of_rowWord ?_, fun b p hp => shiftsWord_of_rowWord ?_⟩
  · revert p; decide
  · simp only [List.mem_cons, List.not_mem_nil, or_false] at hp
    rcases hp with rfl | rfl | rfl | rfl
    · exact congrArg some (wordWith_toNat 0b0000111 rfl b)
    · exact congrArg some (wordWith_toNat 0b0000011 rfl b)
    · exact congrArg some (wordWith_toNat 0b0010011 rfl b)
    · exact congrArg some (wordWith_toNat 0b0010111 rfl b)

/-- Settles O23: the reference table's words at these places. -/
theorem flashAndEepromRowsShiftTheirWord : Obligations.FlashAndEepromRowsShiftTheirWord := by
  unfold Obligations.FlashAndEepromRowsShiftTheirWord
  refine ⟨fun p hp => shiftsWord_of_rowWord ?_, fun b => shiftsWord_of_rowWord ?_⟩
  · revert p; decide
  · exact congrArg some (wordWith_toNat 0b0110011 rfl b)

/-- Settles O24: the reference table's words at these places, the lock operand over its own base. -/
theorem fuseAndLockWriteRowsShiftTheirWord : Obligations.FuseAndLockWriteRowsShiftTheirWord := by
  unfold Obligations.FuseAndLockWriteRowsShiftTheirWord
  refine ⟨fun p hp => shiftsWord_of_rowWord ?_, fun b => shiftsWord_of_rowWord ?_⟩
  · revert p; decide
  · exact congrArg some (wordWith_lock_toNat b)

/-- Settles O25: the reference table's words at these places. -/
theorem readAndNopRowsShiftTheirWord : Obligations.ReadAndNopRowsShiftTheirWord := by
  unfold Obligations.ReadAndNopRowsShiftTheirWord
  intro p hp
  apply shiftsWord_of_rowWord
  revert p
  decide

end Sys2Proof.Machine

/-! PROOF. The memory operations by their words (44_memory_ops sections 1 to 6): the words of each operation
under the reference table, and its ends with every scan answered, with a target that stays busy and with a
poll that fails. -/

namespace Sys2Proof.Machine

/-! ### The words of the reference table -/

theorem addrHighByte_toNat {a : Nat} (h : a < 65536) : (addrHighByte a).toNat = a / 256 := by
  rw [addrHighByte, BitVec.toNat_ofNat, Nat.shiftRight_eq_div_pow]
  exact Nat.mod_eq_of_lt (by omega)

theorem addrLowByte_toNat (a : Nat) : (addrLowByte a).toNat = a % 256 := by
  rw [addrLowByte, BitVec.toNat_ofNat, show (0xFF : Nat) = 2 ^ 8 - 1 from rfl,
    Nat.and_two_pow_sub_one_eq_mod]
  exact Nat.mod_mod a 256

theorem dataByte_toNat {d : Nat} (h : d < 256) : (dataByte d).toNat = d := by
  rw [dataByte, BitVec.toNat_ofNat]
  exact Nat.mod_eq_of_lt h

theorem addrHiWord_toNat {a : Nat} (h : a < 65536) :
    (addrHiWord referenceCmd (addrHighByte a)).toNat = 0x0700 + a / 256 := by
  rw [← addrHighByte_toNat h]
  exact wordWith_toNat 0b0000111 rfl _

theorem addrLoWord_toNat (a : Nat) :
    (addrLoWord referenceCmd (addrLowByte a)).toNat = 0x0300 + a % 256 := by
  rw [← addrLowByte_toNat a]
  exact wordWith_toNat 0b0000011 rfl _

theorem addrLoWord_index_toNat {i : Nat} (hi : i < 256) :
    (addrLoWord referenceCmd (addrLowByte i)).toNat = 0x0300 + i := by
  rw [addrLoWord_toNat, Nat.mod_eq_of_lt hi]

theorem dataLoWord_toNat {d : Nat} (h : d < 256) :
    (dataLoWord referenceCmd (dataByte d)).toNat = 0x1300 + d := by
  have hword : (dataLoWord referenceCmd (dataByte d)).toNat = 0x1300 + (dataByte d).toNat :=
    wordWith_toNat 0b0010011 rfl _
  rw [hword, dataByte_toNat h]

theorem dataHiWord_toNat {d : Nat} (h : d < 256) :
    (dataHiWord referenceCmd (dataByte d)).toNat = 0x1700 + d := by
  have hword : (dataHiWord referenceCmd (dataByte d)).toNat = 0x1700 + (dataByte d).toNat :=
    wordWith_toNat 0b0010111 rfl _
  rw [hword, dataByte_toNat h]

theorem erReadWord_toNat (a : Nat) :
    (erReadWord referenceCmd (addrLowByte a)).toNat = 0x3300 + a % 256 := by
  rw [← addrLowByte_toNat a]
  exact wordWith_toNat 0b0110011 rfl _

theorem lkDataWord_toNat (d : Nat) :
    (lkDataWord referenceCmd (lockBits d)).toNat = 0x13C0 + d % 64 := by
  have hword : (lkDataWord referenceCmd (lockBits d)).toNat = 0x13C0 + (lockBits d).toNat :=
    wordWith_lock_toNat _
  rw [hword, lockBits, BitVec.toNat_ofNat]

/-! ### The fields of a capture -/

/-- Capture `k` of a script is the `k`-th value scanned in, cut to 15 bits. -/
theorem captureAt_map (cs : List Nat) (k : Nat) :
    captureAt (cs.map (BitVec.ofNat 15)) k = BitVec.ofNat 15 (cs.getD k 0) := by
  rw [captureAt, show (0 : CmdWord) = BitVec.ofNat 15 0 from rfl, List.getD_map]

theorem dataOut_captureAt (cs : List Nat) (k : Nat) :
    dataOut (captureAt (cs.map (BitVec.ofNat 15)) k) = BitVec.ofNat 8 (cs.getD k 0) := by
  apply BitVec.eq_of_toNat_eq
  rw [captureAt_map, dataOut, BitVec.extractLsb'_toNat, BitVec.toNat_ofNat, BitVec.toNat_ofNat,
    Nat.shiftRight_zero]
  exact Nat.mod_mod_of_dvd _ (by decide)

theorem lockOut_captureAt (cs : List Nat) (k : Nat) :
    lockOut (captureAt (cs.map (BitVec.ofNat 15)) k) = BitVec.ofNat 8 (cs.getD k 0 % 64) := by
  apply BitVec.eq_of_toNat_eq
  rw [captureAt_map, lockOut, BitVec.toNat_setWidth, BitVec.extractLsb'_toNat, BitVec.toNat_ofNat,
    BitVec.toNat_ofNat, Nat.shiftRight_zero]
  exact congrArg (· % 2 ^ 8) (Nat.mod_mod_of_dvd _ (by decide))

/-! ### The script and the poll word of each operation -/

/-- The script and the poll word of an operation that writes (44_memory_ops R250 to R257). -/
def writePlan (c : Config) : Instr → Option (List CmdWord × CmdWord)
  | .chipErase => some (chipEraseScript c, c.cmd.cePoll)
  | .flashPageWrite p data => some (pageWriteScript c p data, c.cmd.fwPoll)
  | .eepromWrite a d => some (eepromWriteScript c a d, c.cmd.ewPoll)
  | .fuseHighWrite d => some (fuseHighWriteScript c d, c.cmd.fuhPoll)
  | .fuseLowWrite d => some (fuseLowWriteScript c d, c.cmd.fulPoll)
  | .lockWrite d => some (lockWriteScript c d, c.cmd.lkPoll)
  | _ => none

/-- The script of an operation that reads, and the bytes it takes from the captures (44_memory_ops R252 to
R263). -/
def readPlan (c : Config) : Instr → Option (List CmdWord × (List CmdWord → List Byte))
  | .flashPageRead p => some (pageReadScript c p, pageReadBytes c)
  | .eepromRead a => some (eepromReadScript c a, fun cs => [dataOut (captureAt cs 5)])
  | .fuseHighRead => some (fuseHighReadScript c, fun cs => [dataOut (captureAt cs 2)])
  | .fuseLowRead => some (fuseLowReadScript c, fun cs => [dataOut (captureAt cs 2)])
  | .lockRead => some (lockReadScript c, fun cs => [lockOut (captureAt cs 2)])
  | .fusesLockRead => some (fusesLockReadScript c, fun cs =>
      [dataOut (captureAt cs 2), dataOut (captureAt cs 3), lockOut (captureAt cs 4)])
  | .signatureRead i => some (signatureReadScript c i, fun cs => [dataOut (captureAt cs 3)])
  | .calibrationRead i => some (calibrationReadScript c i, fun cs => [dataOut (captureAt cs 3)])
  | _ => none

theorem exec_writePlan {i : Instr} {s : State} {words : List CmdWord} {pollWord : CmdWord}
    (h : writePlan s.cfg i = some (words, pollWord)) :
    exec i s = .next (finish (writeOperation (argsOk s.cfg i) words pollWord (accept i s))) := by
  cases i
  case chipErase | flashPageWrite | eepromWrite | fuseHighWrite | fuseLowWrite | lockWrite =>
    cases h; rfl
  all_goals cases h

theorem exec_readPlan {i : Instr} {s : State} {words : List CmdWord}
    {extract : List CmdWord → List Byte} (h : readPlan s.cfg i = some (words, extract)) :
    exec i s = .next (finish (readOperation (argsOk s.cfg i) words extract (accept i s))) := by
  cases i
  case flashPageRead | eepromRead | fuseHighRead | fuseLowRead | lockRead | fusesLockRead
      | signatureRead | calibrationRead => cases h; rfl
  all_goals cases h

/-- `i` is an operation with valid arguments that writes by these words and polls by this one. -/
def WritesWords (i : Instr) (c : Config) (words : List Nat) (pollWord : Nat) : Prop :=
  validArgs c i ∧ ∃ script poll, writePlan c i = some (script, poll) ∧
    script.map BitVec.toNat = words ∧ poll.toNat = pollWord

/-- `i` is an operation with valid arguments that reads by these words and returns these bytes. -/
def ReadsWords (i : Instr) (c : Config) (words : List Nat) (bytes : List Nat → List Byte) : Prop :=
  validArgs c i ∧ ∃ script extract, readPlan c i = some (script, extract) ∧
    script.map BitVec.toNat = words ∧ ∀ cs, extract (cs.map (BitVec.ofNat 15)) = bytes cs

section Plans

variable {i : Instr} {s : State} {words : List Nat} {pollWord : Nat}

theorem readsBy_of_readsWords {bytes : List Nat → List Byte} (hs : SessionReady s)
    (h : ReadsWords i s.cfg words bytes) : ReadsBy i s words bytes := by
  obtain ⟨hfit, hpm, -⟩ := hs
  obtain ⟨hvalid, script, extract, hplan, rfl, hbytes⟩ := h
  intro opening captured t hlen hans
  rw [List.length_map] at hlen
  have hrun := readOperation_ok (s := accept i s) (extract := extract) hpm hfit hlen
    (answerScans_accept hans)
  rw [exec_readPlan hplan, argsOk_iff.mpr hvalid, hrun, hbytes]
  rfl

variable (hs : SessionReady s) (h : WritesWords i s.cfg words pollWord)
include hs h

theorem writesBy_of_writesWords : WritesBy i s words pollWord := by
  obtain ⟨hfit, hpm, -⟩ := hs
  obtain ⟨hvalid, script, poll, hplan, rfl, rfl⟩ := h
  intro opening busy clear t hopen hbit hbusy hclear hlt hans
  have hrun := writeOperation_ok (s := accept i s) hpm hfit hopen hbit hbusy hclear hlt
    (answerScans_accept hans)
  rw [exec_writePlan hplan, argsOk_iff.mpr hvalid, hrun]
  rfl

theorem timesOutAfterBudget_of_writesWords : TimesOutAfterBudget i s words pollWord := by
  obtain ⟨hfit, hpm, -⟩ := hs
  obtain ⟨hvalid, script, poll, hplan, rfl, rfl⟩ := h
  intro opening busy t hopen hbit hbusy hans
  obtain ⟨caps, hrun⟩ := writeOperation_timeout (s := accept i s) hpm hfit hopen hbit hbusy
    (answerScans_accept hans)
  rw [exec_writePlan hplan, argsOk_iff.mpr hvalid, hrun]
  rfl

theorem failsDuringPoll_of_writesWords : FailsDuringPoll i s words pollWord := by
  obtain ⟨hfit, hpm, -⟩ := hs
  obtain ⟨hvalid, script, poll, hplan, rfl, rfl⟩ := h
  intro opening busy e t hopen hbit hbusy hlt hans
  have hrun := writeOperation_pollFailed (s := accept i s) hpm hfit hopen hbit hbusy hlt
    (answerScans_accept hans)
  rw [exec_writePlan hplan, argsOk_iff.mpr hvalid, hrun]
  rfl

end Plans

/-! ### The six operations that write -/

/-- The words of page `p` are inside the flash (44_memory_ops R243). -/
theorem page_in_flash {c : Config} {p : Nat} (h : p < c.flashWords / c.pageWords) :
    p * c.pageWords + c.pageWords ≤ c.flashWords := by
  rw [← Nat.succ_mul]
  exact (Nat.mul_le_mul_right _ h).trans (Nat.div_mul_le_self _ _)

theorem getD_lt_of_forall {data : List Nat} (h : ∀ d ∈ data, d < 256) (k : Nat) :
    data.getD k 0 < 256 := by
  rcases Nat.lt_or_ge k data.length with hk | hk
  · rw [List.getD_eq_getElem _ _ hk]
    exact h _ (List.getElem_mem hk)
  · rw [List.getD_eq_default _ _ hk]
    decide

section Writes

variable {c : Config} (hcmd : c.cmd = referenceCmd)
include hcmd

theorem writesWords_chipErase :
    WritesWords .chipErase c [0x2380, 0x3180, 0x3380, 0x3380] 0x3380 :=
  ⟨trivial, _, _, rfl, by rw [chipEraseScript, hcmd]; rfl, by rw [hcmd]; rfl⟩

theorem pageWriteScript_words {p : Nat} {data : List Nat} (hc : configOk c = true)
    (hvalid : validArgs c (.flashPageWrite p data)) :
    (pageWriteScript c p data).map BitVec.toNat = pageWriteWords c.pageWords p data := by
  obtain ⟨hp, -, hdata⟩ := hvalid
  obtain ⟨-, -, hpages, -, -, hflash, -⟩ := configOk_iff.mp hc
  have hin := page_in_flash hp
  have hgroup (k : Nat) : (pageWriteGroup c (p * c.pageWords) data k).map BitVec.toNat =
      [0x0300 + (p * c.pageWords + k) % 256, 0x1300 + data.getD (2 * k) 0,
        0x1700 + data.getD (2 * k + 1) 0, 0x3700, 0x7700, 0x3700] := by
    rw [pageWriteGroup, hcmd, List.map_append, List.map_cons, List.map_cons, List.map_cons,
      addrLoWord_toNat, dataLoWord_toNat (getD_lt_of_forall hdata _),
      dataHiWord_toNat (getD_lt_of_forall hdata _)]
    rfl
  simp only [pageWriteScript, pageWriteWords, List.map_append, List.map_flatMap, hgroup]
  rw [hcmd, List.map_cons, List.map_cons, addrHiWord_toNat (by omega)]
  rfl

theorem writesWords_flashPageWrite {p : Nat} {data : List Nat} (hc : configOk c = true)
    (hvalid : validArgs c (.flashPageWrite p data)) :
    WritesWords (.flashPageWrite p data) c (pageWriteWords c.pageWords p data) 0x3700 :=
  ⟨hvalid, _, _, rfl, pageWriteScript_words hcmd hc hvalid, by rw [hcmd]; rfl⟩

theorem writesWords_eepromWrite {a d : Nat} (hc : configOk c = true)
    (hvalid : validArgs c (.eepromWrite a d)) :
    WritesWords (.eepromWrite a d) c [0x2311, 0x0700 + a / 256, 0x0300 + a % 256, 0x1300 + d,
      0x3700, 0x7700, 0x3700, 0x3300, 0x3100, 0x3300, 0x3300] 0x3300 := by
  obtain ⟨ha, hd⟩ := id hvalid
  obtain ⟨-, -, -, -, -, -, heeprom, -⟩ := configOk_iff.mp hc
  refine ⟨hvalid, _, _, rfl, ?_, by rw [hcmd]; rfl⟩
  rw [← addrHiWord_toNat (a := a) (by omega), ← addrLoWord_toNat a, ← dataLoWord_toNat hd,
    eepromWriteScript, hcmd]
  rfl

theorem writesWords_fuseHighWrite {d : Nat} (hd : d < 256) : WritesWords (.fuseHighWrite d) c
    [0x2340, 0x1300 + d, 0x3700, 0x3500, 0x3700, 0x3700] 0x3700 := by
  refine ⟨hd, _, _, rfl, ?_, by rw [hcmd]; rfl⟩
  rw [← dataLoWord_toNat hd, fuseHighWriteScript, hcmd]
  rfl

theorem writesWords_fuseLowWrite {d : Nat} (hd : d < 256) : WritesWords (.fuseLowWrite d) c
    [0x2340, 0x1300 + d, 0x3300, 0x3100, 0x3300, 0x3300] 0x3300 := by
  refine ⟨hd, _, _, rfl, ?_, by rw [hcmd]; rfl⟩
  rw [← dataLoWord_toNat hd, fuseLowWriteScript, hcmd]
  rfl

theorem writesWords_lockWrite {d : Nat} (hd : d < 256) : WritesWords (.lockWrite d) c
    [0x2320, 0x13C0 + d % 64, 0x3300, 0x3100, 0x3300, 0x3300] 0x3300 := by
  refine ⟨hd, _, _, rfl, ?_, by rw [hcmd]; rfl⟩
  rw [← lkDataWord_toNat d, lockWriteScript, hcmd]
  rfl

end Writes

/-! ### The eight operations that read -/

section Reads

variable {c : Config} (hcmd : c.cmd = referenceCmd)
include hcmd

theorem pageReadScript_words {p : Nat} (hc : configOk c = true)
    (hvalid : validArgs c (.flashPageRead p)) :
    (pageReadScript c p).map BitVec.toNat = pageReadWords c.pageWords p := by
  obtain ⟨-, -, -, -, -, hflash, -⟩ := configOk_iff.mp hc
  have hin := page_in_flash (c := c) hvalid
  have hgroup (k : Nat) (hk : k ∈ List.range c.pageWords) :
      (pageReadGroup c (p * c.pageWords) k).map BitVec.toNat =
        [0x0700 + (p * c.pageWords + k) / 256, 0x0300 + (p * c.pageWords + k) % 256,
          0x3200, 0x3600, 0x3700] := by
    have hk := List.mem_range.mp hk
    rw [pageReadGroup, hcmd, List.map_append, List.map_cons, List.map_cons,
      addrHiWord_toNat (by omega), addrLoWord_toNat]
    rfl
  simp only [pageReadScript, pageReadWords, List.map_append, List.map_flatMap]
  rw [List.flatMap_congr hgroup, hcmd]
  rfl

theorem readsWords_flashPageRead {p : Nat} (hc : configOk c = true)
    (hvalid : validArgs c (.flashPageRead p)) :
    ReadsWords (.flashPageRead p) c (pageReadWords c.pageWords p) fun cs =>
      (List.range c.pageWords).flatMap fun k =>
        [BitVec.ofNat 8 (cs.getD (4 + 5 * k) 0), BitVec.ofNat 8 (cs.getD (5 + 5 * k) 0)] := by
  refine ⟨hvalid, _, _, rfl, pageReadScript_words hcmd hc hvalid, fun cs => ?_⟩
  simp only [pageReadBytes, dataOut_captureAt]

theorem readsWords_eepromRead {a : Nat} (hc : configOk c = true)
    (hvalid : validArgs c (.eepromRead a)) :
    ReadsWords (.eepromRead a) c [0x2303, 0x0700 + a / 256, 0x0300 + a % 256, 0x3300 + a % 256,
      0x3200, 0x3300] fun cs => [BitVec.ofNat 8 (cs.getD 5 0)] := by
  obtain ⟨-, -, -, -, -, -, heeprom, -⟩ := configOk_iff.mp hc
  have ha : a < c.eepromBytes := hvalid
  refine ⟨hvalid, _, _, rfl, ?_, fun cs => by rw [dataOut_captureAt]⟩
  rw [← addrHiWord_toNat (a := a) (by omega), ← addrLoWord_toNat a, ← erReadWord_toNat a,
    eepromReadScript, hcmd]
  rfl

theorem readsWords_fuseHighRead : ReadsWords .fuseHighRead c [0x2304, 0x3E00, 0x3F00]
    fun cs => [BitVec.ofNat 8 (cs.getD 2 0)] :=
  ⟨trivial, _, _, rfl, by rw [fuseHighReadScript, hcmd]; rfl, fun cs => by rw [dataOut_captureAt]⟩

theorem readsWords_fuseLowRead : ReadsWords .fuseLowRead c [0x2304, 0x3200, 0x3300]
    fun cs => [BitVec.ofNat 8 (cs.getD 2 0)] :=
  ⟨trivial, _, _, rfl, by rw [fuseLowReadScript, hcmd]; rfl, fun cs => by rw [dataOut_captureAt]⟩

theorem readsWords_lockRead : ReadsWords .lockRead c [0x2304, 0x3600, 0x3700]
    fun cs => [BitVec.ofNat 8 (cs.getD 2 0 % 64)] :=
  ⟨trivial, _, _, rfl, by rw [lockReadScript, hcmd]; rfl, fun cs => by rw [lockOut_captureAt]⟩

theorem readsWords_fusesLockRead :
    ReadsWords .fusesLockRead c [0x2304, 0x3E00, 0x3200, 0x3600, 0x3700] fun cs =>
      [BitVec.ofNat 8 (cs.getD 2 0), BitVec.ofNat 8 (cs.getD 3 0),
        BitVec.ofNat 8 (cs.getD 4 0 % 64)] :=
  ⟨trivial, _, _, rfl, by rw [fusesLockReadScript, hcmd]; rfl, fun cs => by
    rw [dataOut_captureAt, dataOut_captureAt, lockOut_captureAt]⟩

theorem readsWords_signatureRead {i : Nat} (hc : configOk c = true)
    (hvalid : validArgs c (.signatureRead i)) :
    ReadsWords (.signatureRead i) c [0x2308, 0x0300 + i, 0x3200, 0x3300]
      fun cs => [BitVec.ofNat 8 (cs.getD 3 0)] := by
  obtain ⟨-, -, -, -, -, -, -, ⟨-, hsig⟩, -⟩ := configOk_iff.mp hc
  have hi : i < c.sigBytes := hvalid
  refine ⟨hvalid, _, _, rfl, ?_, fun cs => by rw [dataOut_captureAt]⟩
  rw [← addrLoWord_index_toNat (i := i) (by omega), signatureReadScript, hcmd]
  rfl

theorem readsWords_calibrationRead {i : Nat} (hc : configOk c = true)
    (hvalid : validArgs c (.calibrationRead i)) :
    ReadsWords (.calibrationRead i) c [0x2308, 0x0300 + i, 0x3600, 0x3700]
      fun cs => [BitVec.ofNat 8 (cs.getD 3 0)] := by
  obtain ⟨-, -, -, -, -, -, -, -, ⟨-, hcal⟩, -⟩ := configOk_iff.mp hc
  have hi : i < c.calBytes := hvalid
  refine ⟨hvalid, _, _, rfl, ?_, fun cs => by rw [dataOut_captureAt]⟩
  rw [← addrLoWord_index_toNat (i := i) (by omega), calibrationReadScript, hcmd]
  rfl

end Reads

/-! ### The obligations -/

/-- Settles O33: the erase words and the poll word of the reference table, run with every scan answered. -/
theorem chipEraseCompletes : Obligations.ChipEraseCompletes := by
  unfold Obligations.ChipEraseCompletes
  exact fun s hs => writesBy_of_writesWords hs (writesWords_chipErase hs.2.2)

theorem pageWriteWords_length (pageWords p : Nat) (data : List Nat) :
    (pageWriteWords pageWords p data).length = 6 + 6 * pageWords := by
  simp [pageWriteWords, List.length_flatMap]
  omega

theorem pageReadWords_length (pageWords p : Nat) :
    (pageReadWords pageWords p).length = 1 + 5 * pageWords := by
  simp [pageReadWords, List.length_flatMap]
  omega

/-- Settles O34: a page's words, counted and run with every scan answered. -/
theorem flashPageWriteCompletes : Obligations.FlashPageWriteCompletes := by
  unfold Obligations.FlashPageWriteCompletes
  exact fun s p data hs hc hvalid => ⟨pageWriteWords_length _ _ _,
    writesBy_of_writesWords hs (writesWords_flashPageWrite hs.2.2 hc hvalid)⟩

/-- Settles O35: a page's words, counted and run, each byte from its own capture. -/
theorem flashPageReadCompletes : Obligations.FlashPageReadCompletes := by
  unfold Obligations.FlashPageReadCompletes
  exact fun s p hs hc hvalid => ⟨pageReadWords_length _ _,
    readsBy_of_readsWords hs (readsWords_flashPageRead hs.2.2 hc hvalid)⟩

/-- Settles O36: the address and data words of the reference table, run with every scan answered. -/
theorem eepromOperationsComplete : Obligations.EepromOperationsComplete := by
  unfold Obligations.EepromOperationsComplete
  exact fun s a d hs hc =>
    ⟨fun hvalid => writesBy_of_writesWords hs (writesWords_eepromWrite hs.2.2 hc hvalid),
      fun hvalid => readsBy_of_readsWords hs (readsWords_eepromRead hs.2.2 hc hvalid)⟩

/-- Settles O37: the fuse and lock words of the reference table, run with every scan answered. -/
theorem fuseAndLockWritesComplete : Obligations.FuseAndLockWritesComplete := by
  unfold Obligations.FuseAndLockWritesComplete
  exact fun s d hs hd => ⟨writesBy_of_writesWords hs (writesWords_fuseHighWrite hs.2.2 hd),
    writesBy_of_writesWords hs (writesWords_fuseLowWrite hs.2.2 hd),
    writesBy_of_writesWords hs (writesWords_lockWrite hs.2.2 hd)⟩

/-- Settles O38: the read words of the reference table and the fields of their captures. -/
theorem fuseAndLockReadsComplete : Obligations.FuseAndLockReadsComplete := by
  unfold Obligations.FuseAndLockReadsComplete
  exact fun s hs => ⟨readsBy_of_readsWords hs (readsWords_fuseHighRead hs.2.2),
    readsBy_of_readsWords hs (readsWords_fuseLowRead hs.2.2),
    readsBy_of_readsWords hs (readsWords_lockRead hs.2.2),
    readsBy_of_readsWords hs (readsWords_fusesLockRead hs.2.2)⟩

/-- Settles O39: an index below 256 is the operand of its address word as it is. -/
theorem signatureAndCalibrationReadsComplete :
    Obligations.SignatureAndCalibrationReadsComplete := by
  unfold Obligations.SignatureAndCalibrationReadsComplete
  exact fun s i hs hc =>
    ⟨fun hvalid => readsBy_of_readsWords hs (readsWords_signatureRead hs.2.2 hc hvalid),
      fun hvalid => readsBy_of_readsWords hs (readsWords_calibrationRead hs.2.2 hc hvalid)⟩

/-- Settles O42: each of the six writes, by its words, with a target that stays busy. -/
theorem busyTargetTimesOutAfterTheBudget : Obligations.BusyTargetTimesOutAfterTheBudget := by
  unfold Obligations.BusyTargetTimesOutAfterTheBudget
  intro s p a d data hs hc
  have hcmd := hs.2.2
  have htimeout {i : Instr} {words : List Nat} {pollWord : Nat}
      (h : WritesWords i s.cfg words pollWord) := timesOutAfterBudget_of_writesWords hs h
  exact ⟨htimeout (writesWords_chipErase hcmd),
    fun hvalid => htimeout (writesWords_flashPageWrite hcmd hc hvalid),
    fun hvalid => htimeout (writesWords_eepromWrite hcmd hc hvalid),
    fun hd => ⟨htimeout (writesWords_fuseHighWrite hcmd hd),
      htimeout (writesWords_fuseLowWrite hcmd hd), htimeout (writesWords_lockWrite hcmd hd)⟩⟩

/-- Settles O43: each of the six writes, by its words, with a poll that fails. -/
theorem failedPollRecordsThePollCount : Obligations.FailedPollRecordsThePollCount := by
  unfold Obligations.FailedPollRecordsThePollCount
  intro s p a d data hs hc
  have hcmd := hs.2.2
  have hfails {i : Instr} {words : List Nat} {pollWord : Nat}
      (h : WritesWords i s.cfg words pollWord) := failsDuringPoll_of_writesWords hs h
  exact ⟨hfails (writesWords_chipErase hcmd),
    fun hvalid => hfails (writesWords_flashPageWrite hcmd hc hvalid),
    fun hvalid => hfails (writesWords_eepromWrite hcmd hc hvalid),
    fun hd => ⟨hfails (writesWords_fuseHighWrite hcmd hd),
      hfails (writesWords_fuseLowWrite hcmd hd), hfails (writesWords_lockWrite hcmd hd)⟩⟩

end Sys2Proof.Machine

/-! PROOF. The reference device as an environment (47_reference_device section 3): its answers in a row, the
command-word pipeline, and the effect of each word of the reference table. -/

namespace Sys2Proof.Machine

/-! ### The device's answers to scans in a row -/

/-- What the device captures at each of these scans. -/
def deviceCaptures (c : Config) : List Scan → Device → List Nat
  | [], _ => []
  | req :: reqs, d => (deviceScan c req d).1 :: deviceCaptures c reqs (deviceScan c req d).2

/-- The device after these scans. -/
def deviceScans (c : Config) (reqs : List Scan) (d : Device) : Device :=
  reqs.foldl (fun d req => (deviceScan c req d).2) d

theorem deviceScans_append (c : Config) (reqs reqs' : List Scan) (d : Device) :
    deviceScans c (reqs ++ reqs') d = deviceScans c reqs' (deviceScans c reqs d) := List.foldl_append

theorem deviceCaptures_append (c : Config) (reqs' : List Scan) : ∀ (reqs : List Scan) (d : Device),
    deviceCaptures c (reqs ++ reqs') d =
      deviceCaptures c reqs d ++ deviceCaptures c reqs' (deviceScans c reqs d)
  | [], _ => rfl
  | _ :: reqs, _ => congrArg _ (deviceCaptures_append c reqs' reqs _)

/-- The reference environment with no failure injected answers each scan by the device (R302, R303). -/
theorem answerScans_reference (reqs : List Scan) : ∀ {s : State}, s.link = .reference [] →
    answerScans reqs s = (oks (deviceCaptures s.cfg reqs s.target),
      { s with target := deviceScans s.cfg reqs s.target }) := by
  induction reqs with
  | nil => exact fun _ => rfl
  | cons req reqs ih =>
    intro s hl
    have hfirst : answerScan req s = (.ok (deviceScan s.cfg req s.target).1,
        { s with target := (deviceScan s.cfg req s.target).2 }) := by rw [answerScan, hl]
    rw [answerScans_of_cons hfirst (ih hl)]
    rfl

/-! ### The command-word pipeline -/

/-- Command words reach the device's pipeline (R303). -/
def Selected (c : Config) (d : Device) : Prop :=
  d.ir.toNat = c.irProgCommands ∧ c.irProgCommands ≠ c.irAvrReset ∧
    c.irProgCommands ≠ c.irProgEnable ∧ d.prog = true

theorem scanDr_selected {c : Config} {d : Device} (h : Selected c d) (v : Nat) :
    d.scanDr c v = (d.resp.toNat, d.shift c (BitVec.ofNat 15 v)) := by
  obtain ⟨hir, hreset, henable, hprog⟩ := h
  rw [Device.scanDr, if_neg (by rw [hir]; exact hreset), if_neg (by rw [hir]; exact henable),
    if_pos hir, if_pos hprog]

theorem Selected.shift {c : Config} {d : Device} (h : Selected c d) (w : CmdWord) :
    Selected c (d.shift c w) := by
  obtain ⟨hir, -, hprog, -⟩ := Device.shift_fixed c w d
  exact ⟨by rw [hir]; exact h.1, h.2.1, h.2.2.1, hprog.trans h.2.2.2⟩

theorem deviceScans_drScans {c : Config} (words : List Nat) : ∀ {d : Device}, Selected c d →
    deviceScans c (drScans words) d = deviceAfter c words d := by
  induction words with
  | nil => exact fun _ => rfl
  | cons w words ih =>
    intro d h
    have hshift : (deviceScan c (.dr 15 w) d).2 = d.shift c (BitVec.ofNat 15 w) :=
      congrArg Prod.snd (scanDr_selected h w)
    show deviceScans c (drScans words) (deviceScan c (.dr 15 w) d).2 = _
    rw [hshift, ih (h.shift _)]
    rfl

theorem deviceCaptures_drScans {c : Config} (words : List Nat) : ∀ {d : Device}, Selected c d →
    deviceCaptures c (drScans words) d =
      (List.range words.length).map fun k => (deviceAfter c (words.take k) d).resp.toNat := by
  induction words with
  | nil => exact fun _ => rfl
  | cons w words ih =>
    intro d h
    have hscan : deviceScan c (.dr 15 w) d = (d.resp.toNat, d.shift c (BitVec.ofNat 15 w)) :=
      scanDr_selected h w
    show (deviceScan c (.dr 15 w) d).1 :: deviceCaptures c (drScans words)
      (deviceScan c (.dr 15 w) d).2 = _
    rw [hscan, ih (h.shift _), List.length_cons, List.range_succ_eq_map, List.map_cons, List.map_map]
    rfl

theorem deviceAfter_trunc (c : Config) (words : List Nat) (d : Device) :
    deviceAfter c (words.map (· % 2 ^ 15)) d = deviceAfter c words d := by
  rw [deviceAfter, deviceAfter, List.foldl_map]
  simp only [cmdWord_trunc, Nat.reducePow]

/-- Settles O20: the device's captures are its responses before each word. -/
theorem capturesAnswerThePreviousWord : Obligations.CapturesAnswerThePreviousWord := by
  unfold Obligations.CapturesAnswerThePreviousWord
  intro s words hb hl hsel
  have hans := answerScans_reference (drScans (words.map (· % 2 ^ 15))) hl
  rw [exec_runScript_ok hb hans, deviceScans_drScans _ hsel, deviceCaptures_drScans _ hsel,
    deviceAfter_trunc, List.length_map, List.map_map]
  simp only [← List.map_take, deviceAfter_trunc, Function.comp_def, BitVec.ofNat_toNat,
    BitVec.setWidth_eq]

/-! ### Words as the table holds them -/

/-- The device after command words of 15 bits (R306). -/
def shiftAll (c : Config) (words : List CmdWord) (d : Device) : Device :=
  words.foldl (fun d w => d.shift c w) d

theorem shiftAll_append (c : Config) (words words' : List CmdWord) (d : Device) :
    shiftAll c (words ++ words') d = shiftAll c words' (shiftAll c words d) := List.foldl_append

theorem deviceAfter_toNat (c : Config) (words : List CmdWord) (d : Device) :
    deviceAfter c (words.map BitVec.toNat) d = shiftAll c words d := by
  rw [deviceAfter, shiftAll, List.foldl_map]
  simp only [BitVec.ofNat_toNat, BitVec.setWidth_eq]

theorem Selected.shiftAll {c : Config} (words : List CmdWord) : ∀ {d : Device}, Selected c d →
    Selected c (shiftAll c words d) := by
  induction words with
  | nil => exact fun h => h
  | cons w words ih => exact fun h => ih (h.shift w)

/-! ### The effect of each word (R307 to R311) -/

section Effects

variable (c : Config) (d : Device) (b : Byte)

/-- The fixed bits and the operand of a word with an operand byte (30_encoding R87). -/
theorem wordOp7_append (op7 : BitVec 7) : wordOp7 (op7 ++ b) = op7 :=
  BitVec.extractLsb'_append_eq_left

theorem wordOpnd_append (op7 : BitVec 7) : wordOpnd (op7 ++ b) = b :=
  BitVec.extractLsb'_append_eq_right

@[simp] theorem effect_addrHi : d.effect c (addrHiWord referenceCmd b) = { d with ah := b } := by
  have hword : addrHiWord referenceCmd b = (0b0000111 : BitVec 7) ++ b := wordWith_append 0b0000111 b
  rw [hword, Device.effect, wordOp7_append, wordOpnd_append]
  rfl

@[simp] theorem effect_addrLo : d.effect c (addrLoWord referenceCmd b) = { d with al := b } := by
  have hword : addrLoWord referenceCmd b = (0b0000011 : BitVec 7) ++ b := wordWith_append 0b0000011 b
  rw [hword, Device.effect, wordOp7_append, wordOpnd_append]
  rfl

@[simp] theorem effect_dataLo : d.effect c (dataLoWord referenceCmd b) = { d with dl := b } := by
  have hword : dataLoWord referenceCmd b = (0b0010011 : BitVec 7) ++ b := wordWith_append 0b0010011 b
  rw [hword, Device.effect, wordOp7_append, wordOpnd_append]
  rfl

@[simp] theorem effect_dataHi : d.effect c (dataHiWord referenceCmd b) = { d with dh := b } := by
  have hword : dataHiWord referenceCmd b = (0b0010111 : BitVec 7) ++ b := wordWith_append 0b0010111 b
  rw [hword, Device.effect, wordOp7_append, wordOpnd_append]
  rfl

/-- The lock operand loads the data register with ones in bits 7:6. -/
@[simp] theorem effect_lkData (l : BitVec 6) :
    d.effect c (lkDataWord referenceCmd l) = { d with dl := (0b11 : BitVec 2) ++ l } := by
  have hword : lkDataWord referenceCmd l = (0b0010011 : BitVec 7) ++ ((0b11 : BitVec 2) ++ l) := by
    revert l
    decide
  rw [hword, Device.effect, wordOp7_append, wordOpnd_append]
  rfl

theorem effect_erRead (h : d.mode = .eepromRead) :
    d.effect c (erReadWord referenceCmd b) = { d with al := b } := by
  have hword : erReadWord referenceCmd b = (0b0110011 : BitVec 7) ++ b := wordWith_append 0b0110011 b
  rw [hword, Device.effect, wordOp7_append, wordOpnd_append]
  simp [h]

end Effects

/-! ### Counters and data -/

/-- The device without its strobe and busy counters and its response. -/
def Device.data (d : Device) : Device := { d with trig := 0, rem := .finite 0, resp := 0 }

/-- The device after the effects of these words alone. -/
def effectAll (c : Config) (words : List CmdWord) (d : Device) : Device :=
  words.foldl (fun d w => d.effect c w) d

theorem effectAll_append (c : Config) (words words' : List CmdWord) (d : Device) :
    effectAll c (words ++ words') d = effectAll c words' (effectAll c words d) := List.foldl_append

theorem tick_data (d : Device) : d.tick.data = d.data := by
  rw [Device.tick_frame]
  rfl

theorem latch_data (c : Config) (d : Device) : (d.latch c).data = (d.data.latch c).data := by
  unfold Device.latch
  rw [show d.data.mode = d.mode from rfl]
  cases d.mode <;> rfl

theorem pulse_data (c : Config) (w : CmdWord) (d : Device) :
    (d.pulse c w).data = (d.data.pulse c w).data := by
  unfold Device.pulse
  rw [show d.data.mode = d.mode from rfl]
  cases d.mode
  case chipErase | flashWrite | eepromWrite | fuseWrite | lockWrite =>
    dsimp only
    split_ifs <;> rfl
  all_goals rfl

/-- The effect of a word on the data reads no counter. -/
theorem effect_data (c : Config) (w : CmdWord) (d : Device) :
    (d.effect c w).data = (d.data.effect c w).data := by
  unfold Device.effect
  rw [show d.data.mode = d.mode from rfl]
  split_ifs
  case pos | pos | pos | pos | pos | pos => rfl
  case pos => exact latch_data c d
  case neg => exact pulse_data c w d

theorem effect_data_congr {c : Config} {w : CmdWord} {d d' : Device} (h : d.data = d'.data) :
    (d.effect c w).data = (d'.effect c w).data := by
  rw [effect_data, h, ← effect_data]

theorem shift_data (c : Config) (w : CmdWord) (d : Device) :
    (d.shift c w).data = (d.effect c w).data := effect_data_congr (tick_data d)

/-- What a script does to the data is what its effects do: the counters play no part in it. -/
theorem shiftAll_data (c : Config) (words : List CmdWord) : ∀ {d d' : Device}, d.data = d'.data →
    (shiftAll c words d).data = (effectAll c words d').data := by
  induction words with
  | nil => exact fun h => h
  | cons w words ih => exact fun h => ih ((shift_data c w _).trans (effect_data_congr h))

/-! ### Quiet words -/

/-- A word that is no pulse word of any mode (R310). -/
def Harmless (w : CmdWord) : Prop := w ≠ 0x3180 ∧ w ≠ 0x3500 ∧ w ≠ 0x3100

/-- What a word that is no pulse word leaves as it was: the memories and the read-only bytes. -/
structure SameData (d d' : Device) : Prop where
  flash : d'.flash = d.flash
  eeprom : d'.eeprom = d.eeprom
  fuseHi : d'.fuseHi = d.fuseHi
  fuseLo : d'.fuseLo = d.fuseLo
  lock : d'.lock = d.lock
  sig : d'.sig = d.sig
  cal : d'.cal = d.cal

theorem SameData.refl (d : Device) : SameData d d := ⟨rfl, rfl, rfl, rfl, rfl, rfl, rfl⟩

theorem SameData.trans {d d' d'' : Device} (h : SameData d d') (h' : SameData d' d'') :
    SameData d d'' :=
  ⟨h'.flash.trans h.flash, h'.eeprom.trans h.eeprom, h'.fuseHi.trans h.fuseHi,
    h'.fuseLo.trans h.fuseLo, h'.lock.trans h.lock, h'.sig.trans h.sig, h'.cal.trans h.cal⟩

theorem pulse_harmless {c : Config} {w : CmdWord} (hw : Harmless w) (d : Device) :
    d.pulse c w = d := by
  obtain ⟨h1, h2, h3⟩ := hw
  unfold Device.pulse
  split
  case h_1 => rw [if_neg h1]
  case h_2 => rw [if_neg h2]
  case h_3 => rw [if_neg h3]
  case h_4 => rw [if_neg h2, if_neg h3]
  case h_5 => rw [if_neg h3]
  case h_6 => rfl

theorem latch_sameData (c : Config) (d : Device) : SameData d (d.latch c) := by
  rw [Device.latch_frame]
  exact ⟨rfl, rfl, rfl, rfl, rfl, rfl, rfl⟩

theorem tick_sameData (d : Device) : SameData d d.tick := by
  rw [Device.tick_frame]
  exact ⟨rfl, rfl, rfl, rfl, rfl, rfl, rfl⟩

theorem effect_sameData {c : Config} {w : CmdWord} (hw : Harmless w) (d : Device) :
    SameData d (d.effect c w) := by
  unfold Device.effect
  split_ifs
  case pos | pos | pos | pos | pos | pos => exact ⟨rfl, rfl, rfl, rfl, rfl, rfl, rfl⟩
  case pos => exact latch_sameData c d
  case neg => rw [pulse_harmless hw]; exact .refl d

theorem shift_sameData {c : Config} {w : CmdWord} (hw : Harmless w) (d : Device) :
    SameData d (d.shift c w) := by
  have h : SameData d (d.tick.effect c w) := (tick_sameData d).trans (effect_sameData hw d.tick)
  exact ⟨h.flash, h.eeprom, h.fuseHi, h.fuseLo, h.lock, h.sig, h.cal⟩

/-- No strobe runs and no busy response is left. -/
def Quiet (d : Device) : Prop := d.trig = 0 ∧ d.rem.positive = false

theorem quiet_of_not_busy {d : Device} (h : d.busy = false) : Quiet d := by
  simpa [Device.busy, Quiet] using h

theorem Quiet.busy {d : Device} (h : Quiet d) : d.busy = false := by
  simp [Device.busy, h.1, h.2]

theorem Quiet.tick {d : Device} (h : Quiet d) : d.tick = d := by
  rw [Device.tick, if_neg (not_not.mpr h.1), if_neg (by simp [h.2])]

theorem effect_quiet {c : Config} {w : CmdWord} (hw : Harmless w) {d : Device} (h : Quiet d) :
    Quiet (d.effect c w) := by
  unfold Device.effect
  split_ifs
  case pos => exact ⟨rfl, h.2⟩
  case pos | pos | pos | pos | pos => exact h
  case pos => rw [Device.latch_frame]; exact h
  case neg => rw [pulse_harmless hw]; exact h

theorem shift_quiet {c : Config} {w : CmdWord} (hw : Harmless w) {d : Device} (h : Quiet d) :
    Quiet (d.shift c w) := by
  have heffect : Quiet (d.tick.effect c w) := by rw [h.tick]; exact effect_quiet hw h
  exact heffect

theorem shiftAll_quiet {c : Config} (words : List CmdWord) (hw : ∀ w ∈ words, Harmless w) :
    ∀ {d : Device}, Quiet d → Quiet (shiftAll c words d) := by
  induction words with
  | nil => exact fun h => h
  | cons w words ih =>
    exact fun h => ih (fun v hv => hw v (List.mem_cons_of_mem _ hv))
      (shift_quiet (hw w List.mem_cons_self) h)

theorem effectAll_sameData {c : Config} (words : List CmdWord) (hw : ∀ w ∈ words, Harmless w) :
    ∀ d : Device, SameData d (effectAll c words d) := by
  induction words with
  | nil => exact .refl
  | cons w words ih =>
    exact fun d => (effect_sameData (hw w List.mem_cons_self) d).trans
      (ih (fun v hv => hw v (List.mem_cons_of_mem _ hv)) _)

/-- A quiet device answers the read data alone (R306). -/
theorem response_quiet {c : Config} {w : CmdWord} {d : Device} (h : Quiet d) :
    d.response c w = (d.readData c w).setWidth 15 := by
  simp [Device.response, h.busy]

/-- The read data reads no counter (R311). -/
theorem readData_data_congr {c : Config} {w : CmdWord} {d d' : Device} (h : d.data = d'.data) :
    d.readData c w = d'.readData c w := by
  have hdata (d : Device) : d.readData c w = d.data.readData c w := rfl
  rw [hdata d, h, ← hdata]

/-- The response after a word that a quiet device took, by the data alone. -/
theorem shiftAll_resp_quiet {c : Config} {words : List CmdWord} {w : CmdWord}
    (hwords : ∀ v ∈ words, Harmless v) (hw : Harmless w) {d : Device} (h : Quiet d) :
    (shiftAll c (words ++ [w]) d).resp =
      ((effectAll c (words ++ [w]) d).readData c w).setWidth 15 := by
  have hq := shiftAll_quiet (c := c) words hwords h
  have hdata : ((shiftAll c words d).tick.effect c w).data =
      (effectAll c (words ++ [w]) d).data := by
    rw [effectAll_append]
    exact effect_data_congr ((tick_data _).trans (shiftAll_data c words rfl))
  have hresp : (shiftAll c (words ++ [w]) d).resp =
      ((shiftAll c words d).tick.effect c w).response c w := by rw [shiftAll_append]; rfl
  have hquiet : Quiet ((shiftAll c words d).tick.effect c w) := shift_quiet (c := c) hw hq
  rw [hresp, response_quiet hquiet, readData_data_congr hdata]

end Sys2Proof.Machine

/-! PROOF. What the block's scans do to the reference device however its transport behaves
(47_reference_device section 3, 44_memory_ops sections 3 to 6, 45_target_interface section 2): the reads
leave its memories, and a page write leaves everything outside its page. -/

namespace Sys2Proof.Machine

/-! ### Data scans -/

section DataScans

variable {c : Config} {d : Device}

theorem enable_frame (v : Nat) : SameData d (d.enable c v) ∧ (d.enable c v).pagebuf = d.pagebuf ∧
    (d.enable c v).ir = d.ir := by
  unfold Device.enable
  split
  case isTrue => exact ⟨⟨rfl, rfl, rfl, rfl, rfl, rfl, rfl⟩, rfl, rfl⟩
  case isFalse => split <;> exact ⟨⟨rfl, rfl, rfl, rfl, rfl, rfl, rfl⟩, rfl, rfl⟩

/-- A data scan that does not reach the pipeline changes the scan registers only, and none after it
reaches the pipeline before the next instruction (47_reference_device R303 to R305). -/
theorem scanDr_unselected (h : ¬ Selected c d) (v : Nat) : SameData d (d.scanDr c v).2 ∧
    (d.scanDr c v).2.pagebuf = d.pagebuf ∧ ¬ Selected c (d.scanDr c v).2 := by
  unfold Device.scanDr
  split
  case isTrue => exact ⟨⟨rfl, rfl, rfl, rfl, rfl, rfl, rfl⟩, rfl, h⟩
  split
  case isTrue hir =>
    obtain ⟨hdata, hbuf, hsame⟩ := enable_frame (c := c) (d := d) v
    refine ⟨hdata, hbuf, fun hsel => hsel.2.2.1 ?_⟩
    rw [← hsel.1, hsame, hir]
  split
  case isTrue hreset henable hir =>
    split
    case isTrue hprog =>
      rw [hir] at hreset henable
      exact absurd ⟨hir, hreset, henable, hprog⟩ h
    case isFalse => exact ⟨.refl d, rfl, h⟩
  case isFalse => exact ⟨.refl d, rfl, h⟩

/-- No data scan touches the instruction register. -/
theorem scanDr_ir (v : Nat) : (d.scanDr c v).2.ir = d.ir := by
  by_cases h : Selected c d
  · rw [scanDr_selected h]
    exact (Device.shift_fixed c _ d).1
  · unfold Device.scanDr
    split
    case isTrue => rfl
    split
    case isTrue => exact (enable_frame v).2.2
    split
    case isTrue =>
      split
      case isTrue => exact (Device.shift_fixed c _ d).1
      case isFalse => rfl
    case isFalse => rfl

/-- A harmless word leaves the memories whatever register it reaches. -/
theorem scanDr_harmless {v : Nat} (hw : Harmless (BitVec.ofNat 15 v)) :
    SameData d (d.scanDr c v).2 := by
  by_cases h : Selected c d
  · rw [scanDr_selected h]
    exact shift_sameData hw d
  · exact (scanDr_unselected h v).1

end DataScans

/-! ### Triples over the reference device -/

/-- The reference environment is in force, whatever failures are injected, and cache and device meet `Q`. -/
structure Ref (c : Config) (Q : IrCache → Device → Prop) (s : State) : Prop where
  cfg : s.cfg = c
  link : ∃ inject, s.link = .reference inject
  holds : Q s.irCache s.target

theorem Ref.imp {c : Config} {Q Q' : IrCache → Device → Prop} {s : State} (h : Ref c Q s)
    (hQ : ∀ x d, Q x d → Q' x d) : Ref c Q' s := ⟨h.cfg, h.link, hQ _ _ h.holds⟩

/-- From `Q` the run ends with data in `Q'`, with an error in `F`, and it does not wait: the reference
device answers every scan. -/
abbrev RefRun {α : Type} (c : Config) (Q' F : IrCache → Device → Prop) (r : Run α) : Prop :=
  r.Meets (fun _ => Ref c Q') (fun _ _ => Ref c F) fun _ => False

section Triples

variable {c : Config} {Q Q' F : IrCache → Device → Prop} {s : State}

/-- One scan of the reference device: it is answered by the device or fails and leaves the device
(47_reference_device R302, R303, R312). -/
theorem answerScan_ref (req : Scan) (h : ∃ inject, s.link = .reference inject) :
    ∃ inject, (∃ cap, answerScan req s = (.ok cap, { s with
        link := .reference inject, target := (deviceScan s.cfg req s.target).2 })) ∨
      ∃ e, answerScan req s = (.err e, { s with link := .reference inject }) := by
  obtain ⟨inject, hl⟩ := h
  rcases inject with _ | ⟨_ | e, rest⟩
  · exact ⟨[], .inl ⟨_, by rw [answerScan, hl]⟩⟩
  · exact ⟨rest, .inl ⟨_, by rw [answerScan, hl]⟩⟩
  · exact ⟨rest, .inr ⟨e, by rw [answerScan, hl]⟩⟩

theorem scan_ref {req : Scan} (hQ : ∀ x d, Q x d → Q' x (deviceScan c req d).2)
    (hF : ∀ x d, Q x d → F x d) (h : Ref c Q s) : RefRun c Q' F (scan req s) := by
  obtain ⟨inject, ⟨cap, hans⟩ | ⟨e, hans⟩⟩ := answerScan_ref req h.link
  · rw [scan_eq hans]
    exact ⟨h.cfg, ⟨inject, rfl⟩, by rw [h.cfg]; exact hQ _ _ h.holds⟩
  · rw [scan_eq hans]
    exact ⟨h.cfg, ⟨inject, rfl⟩, hF _ _ h.holds⟩

theorem writeData_ref {w v : Nat} (hQ : ∀ x d, Q x d → Q' x (d.scanDr c (trunc w v)).2)
    (hF : ∀ x d, Q x d → F x d) (h : Ref c Q s) : RefRun c Q' F (writeData w v s) := by
  unfold writeData
  split
  case isTrue => exact h.imp hF
  split
  case isTrue => exact h.imp hF
  case isFalse => exact scan_ref hQ hF h

/-- A load: on a hit nothing happens, and an answered load moves the instruction register and the cache
together (40_scan_primitives R111, R115). -/
theorem ensureInstruction_ref {code : Nat} (hit : ∀ d, Q (loaded code) d → Q' (loaded code) d)
    (miss : ∀ x d, Q x d → Q' (loaded code) { d with ir := BitVec.ofNat 4 (code % 16) })
    (hF : ∀ x d, Q x d → F x d ∧ F .unknown d) (h : Ref c Q s) :
    RefRun c Q' F (ensureInstruction code s) := by
  unfold ensureInstruction
  split
  case isTrue hhit =>
    have hload : s.irCache = loaded code := hhit
    exact ⟨h.cfg, h.link, by rw [hload]; exact hit _ (by rw [← hload]; exact h.holds)⟩
  case isFalse =>
    have hcut : trunc irWidth (trunc irWidth code) = code % 16 := Nat.mod_mod code 16
    have hkeep : RefRun c (fun _ d => Q' (loaded code) d)
        (fun x d => F x d ∧ F .unknown d) (scan (.ir irWidth (code % 16)) s) :=
      scan_ref (fun x d => miss x d) hF h
    unfold writeInstruction
    rw [hcut]
    split
    case isTrue => exact h.imp fun x d hq => (hF x d hq).1
    split
    case isTrue => exact h.imp fun x d hq => (hF x d hq).1
    split
    case isTrue => exact h.imp fun x d hq => (hF x d hq).1
    split
    case h_1 hends => rw [hends] at hkeep; exact ⟨hkeep.cfg, hkeep.link, hkeep.holds⟩
    case h_2 hends => rw [hends] at hkeep; exact ⟨hkeep.cfg, hkeep.link, hkeep.holds.2⟩
    case h_3 hends => rw [hends] at hkeep; exact hkeep

theorem Ref.pushCapture (h : Ref c Q s) (cap : Nat) : Ref c Q (pushCapture cap s) :=
  ⟨h.cfg, h.link, h.holds⟩

/-- A predicate that each word of a script keeps is kept by the script, however it ends. -/
theorem runWords_ref {words : List CmdWord}
    (hQ : ∀ w ∈ words, ∀ x d, Q x d → Q x (d.scanDr c w.toNat).2) (hF : ∀ x d, Q x d → F x d) :
    ∀ {s : State}, Ref c Q s → RefRun c Q F (runWords (words.map BitVec.toNat) s) := by
  induction words with
  | nil => exact fun h => h
  | cons w words ih =>
    intro s h
    have hcut : trunc pcmdWidth w.toNat = w.toNat := Nat.mod_eq_of_lt w.isLt
    refine (writeData_ref (Q' := Q) (fun x d hq => ?_) hF h).andThen fun cap t ht => ?_
    · rw [hcut]
      exact hQ w List.mem_cons_self x d hq
    · exact ih (fun v hv => hQ v (List.mem_cons_of_mem _ hv)) (ht.pushCapture cap)

/-- One word and the words after it. -/
theorem runWords_cons_ref {w : CmdWord} {words : List CmdWord} {R : IrCache → Device → Prop}
    (hw : ∀ x d, Q x d → Q' x (d.scanDr c w.toNat).2) (hF : ∀ x d, Q x d → F x d)
    (hrest : ∀ {s : State}, Ref c Q' s → RefRun c R F (runWords (words.map BitVec.toNat) s))
    (h : Ref c Q s) : RefRun c R F (runWords ((w :: words).map BitVec.toNat) s) := by
  have hcut : trunc pcmdWidth w.toNat = w.toNat := Nat.mod_eq_of_lt w.isLt
  refine (writeData_ref (Q' := Q') (fun x d hq => ?_) hF h).andThen fun cap t ht => ?_
  · rw [hcut]
    exact hw x d hq
  · exact hrest (ht.pushCapture cap)

theorem runScriptInside_ref {words : List CmdWord}
    (hwords : ∀ {s : State}, Ref c Q s → RefRun c Q' F (runWords (words.map BitVec.toNat) s))
    (h : Ref c Q s) : RefRun c Q' F (runScriptInside words s) := by
  have hstart : Ref c Q { s with caps := [] } := ⟨h.cfg, h.link, h.holds⟩
  have hrecord : RefRun c Q' F (runCommandScript (words.map BitVec.toNat) s) :=
    ((hwords hstart).record fun _ _ _ h => h).andThen fun _ _ h => h
  exact hrecord.record fun _ _ _ h => h

theorem pollLoop_ref {pollWord : CmdWord} (hQ : ∀ x d, Q x d → Q x (d.scanDr c pollWord.toNat).2)
    (hF : ∀ x d, Q x d → F x d) (left : Nat) :
    ∀ {s : State}, Ref c Q s → RefRun c Q F (pollLoop pollWord left s) := by
  have hscript {s : State} (h : Ref c Q s) : RefRun c Q F (runScriptInside [pollWord] s) :=
    runScriptInside_ref (fun h => runWords_ref (by simpa using hQ) hF h) h
  induction left with
  | zero => exact fun h => h.imp hF
  | succ left ih =>
    intro s h
    refine (hscript h).andThen fun cs t ht => ?_
    have hnext : Ref c Q { t with polls := t.polls + 1 } := ⟨ht.cfg, ht.link, ht.holds⟩
    dsimp only
    split
    case isTrue => exact ih hnext
    case isFalse => exact hnext

theorem busyPoll_ref {pollWord : CmdWord} (hQ : ∀ x d, Q x d → Q x (d.scanDr c pollWord.toNat).2)
    (hF : ∀ x d, Q x d → F x d) (h : Ref c Q s) : RefRun c Q F (busyPoll pollWord s) :=
  (pollLoop_ref hQ hF _ (s := { s with polls := 0 }) ⟨h.cfg, h.link, h.holds⟩).record
    fun _ _ _ h => h

theorem onError_ref {α : Type} {r : Run α} (h : RefRun c Q F r) : RefRun c Q F (r.onError toError) :=
  Run.Meets.onError h fun _ _ _ h => ⟨h.cfg, h.link, h.holds⟩

/-- Whatever the ends of a run have in common on the device holds of the state the operation leaves. -/
theorem finish_ref {r : Run OkData} {R : IrCache → Device → Prop} (h : RefRun c Q F r)
    (hQ : ∀ x d, Q x d → R x d) (hF : ∀ x d, F x d → R x d) :
    R (finish r).irCache (finish r).target := by
  cases r with
  | ok data t => exact hQ _ _ h.holds
  | err kind info t => exact hF _ _ h.holds
  | stuck t => exact h.elim

end Triples

/-! ### Words that commit nothing -/

theorem harmless_of_op7 {w : CmdWord} (h1 : wordOp7 w ≠ 0x31) (h2 : wordOp7 w ≠ 0x35) :
    Harmless w := by
  refine ⟨?_, ?_, ?_⟩ <;> rintro rfl
  · exact h1 rfl
  · exact h2 rfl
  · exact h1 rfl

theorem wordOp7_wordWith {base : CmdWord} (op7 : BitVec 7) (hb : base = op7 ++ (0 : Byte)) (b : Byte) :
    wordOp7 (wordWith base b) = op7 := by
  rw [hb, wordWith_append, wordOp7_append]

section Words

variable (b : Byte)

theorem harmless_addrHi : Harmless (addrHiWord referenceCmd b) := by
  have h : wordOp7 (addrHiWord referenceCmd b) = 0x07 := wordOp7_wordWith 0x07 rfl b
  exact harmless_of_op7 (by rw [h]; decide) (by rw [h]; decide)

theorem harmless_addrLo : Harmless (addrLoWord referenceCmd b) := by
  have h : wordOp7 (addrLoWord referenceCmd b) = 0x03 := wordOp7_wordWith 0x03 rfl b
  exact harmless_of_op7 (by rw [h]; decide) (by rw [h]; decide)

theorem harmless_dataLo : Harmless (dataLoWord referenceCmd b) := by
  have h : wordOp7 (dataLoWord referenceCmd b) = 0x13 := wordOp7_wordWith 0x13 rfl b
  exact harmless_of_op7 (by rw [h]; decide) (by rw [h]; decide)

theorem harmless_dataHi : Harmless (dataHiWord referenceCmd b) := by
  have h : wordOp7 (dataHiWord referenceCmd b) = 0x17 := wordOp7_wordWith 0x17 rfl b
  exact harmless_of_op7 (by rw [h]; decide) (by rw [h]; decide)

theorem harmless_erRead : Harmless (erReadWord referenceCmd b) := by
  have h : wordOp7 (erReadWord referenceCmd b) = 0x33 := wordOp7_wordWith 0x33 rfl b
  exact harmless_of_op7 (by rw [h]; decide) (by rw [h]; decide)

end Words

/-- A word of the list is harmless: the check of a word without operand. -/
def harmlessAll (words : List CmdWord) : Bool :=
  words.all fun w => w != 0x3180 && (w != 0x3500 && w != 0x3100)

theorem harmless_of_harmlessAll {words : List CmdWord} (h : harmlessAll words = true) :
    ∀ w ∈ words, Harmless w := by
  intro w hw
  have hword := List.all_eq_true.mp h w hw
  simpa [Harmless] using hword

theorem pageReadGroup_harmless {c : Config} (hcmd : c.cmd = referenceCmd) (base k : Nat) :
    ∀ w ∈ pageReadGroup c base k, Harmless w := by
  rw [pageReadGroup, hcmd]
  exact List.forall_mem_append.mpr ⟨List.forall_mem_cons.mpr ⟨harmless_addrHi _,
    List.forall_mem_cons.mpr ⟨harmless_addrLo _, by simp⟩⟩, harmless_of_harmlessAll rfl⟩

theorem pageReadScript_harmless {c : Config} (hcmd : c.cmd = referenceCmd) (p : Nat) :
    ∀ w ∈ pageReadScript c p, Harmless w := by
  rw [pageReadScript]
  refine List.forall_mem_append.mpr ⟨by rw [hcmd]; exact harmless_of_harmlessAll rfl, fun w hw => ?_⟩
  obtain ⟨k, -, hk⟩ := List.mem_flatMap.mp hw
  exact pageReadGroup_harmless hcmd _ k w hk

/-- No word of a read is a pulse word (44_memory_ops R252 to R263). -/
theorem readPlan_harmless {c : Config} (hcmd : c.cmd = referenceCmd) {i : Instr}
    {words : List CmdWord} {extract : List CmdWord → List Byte}
    (h : readPlan c i = some (words, extract)) : ∀ w ∈ words, Harmless w := by
  cases i
  case flashPageRead p => cases h; exact pageReadScript_harmless hcmd p
  case eepromRead a =>
    cases h
    rw [eepromReadScript, hcmd]
    exact List.forall_mem_cons.mpr ⟨⟨by decide, by decide, by decide⟩,
      List.forall_mem_cons.mpr ⟨harmless_addrHi _, List.forall_mem_cons.mpr ⟨harmless_addrLo _,
        List.forall_mem_cons.mpr ⟨harmless_erRead _, harmless_of_harmlessAll rfl⟩⟩⟩⟩
  case fuseHighRead | fuseLowRead | lockRead | fusesLockRead =>
    cases h
    simp only [fuseHighReadScript, fuseLowReadScript, lockReadScript, fusesLockReadScript, hcmd]
    exact harmless_of_harmlessAll rfl
  case signatureRead | calibrationRead =>
    cases h
    simp only [signatureReadScript, calibrationReadScript, hcmd]
    exact List.forall_mem_append.mpr ⟨List.forall_mem_cons.mpr ⟨⟨by decide, by decide, by decide⟩,
      List.forall_mem_cons.mpr ⟨harmless_addrLo _, by simp⟩⟩, harmless_of_harmlessAll rfl⟩
  all_goals cases h

/-! ### Reads -/

section Reads

variable {c : Config} {d₀ : Device} {words : List CmdWord} {s : State}

/-- The memories are those of `d₀`, whatever the cache holds. -/
def DataOf (d₀ : Device) (_ : IrCache) (d : Device) : Prop := SameData d₀ d

theorem readOperation_ref {valid : Bool} {extract : List CmdWord → List Byte}
    (hwords : ∀ w ∈ words, Harmless w) (h : Ref c (DataOf d₀) s) :
    RefRun c (DataOf d₀) (DataOf d₀) (readOperation valid words extract s) := by
  have hscript {s : State} (h : Ref c (DataOf d₀) s) :
      RefRun c (DataOf d₀) (DataOf d₀) (runScriptInside words s) :=
    runScriptInside_ref (runWords_ref (fun w hw x d hd => hd.trans (scanDr_harmless
      (by rw [BitVec.ofNat_toNat, BitVec.setWidth_eq]; exact hwords w hw))) fun _ _ hd => hd) h
  have hload : RefRun c (DataOf d₀) (DataOf d₀) (ensureInstruction s.cfg.irProgCommands s) :=
    ensureInstruction_ref (fun d hd => hd)
      (fun x d hd => hd.trans ⟨rfl, rfl, rfl, rfl, rfl, rfl, rfl⟩) (fun _ _ hd => ⟨hd, hd⟩) h
  unfold readOperation
  split
  case isTrue => exact h
  split
  case isTrue => exact h
  case isFalse =>
    exact (onError_ref (hload.andThen fun _ _ ht => hscript ht)).andThen fun _ _ ht => ht

end Reads

/-- A target under the free environment is not reached at all (10_state section 6; log 6). -/
theorem exec_free_target {i : Instr} {s t : State} {supplied : List Answer} {n : Nat}
    (hl : s.link = .free supplied n) (ht : exec i s = .next t) : t.target = s.target := by
  have hfree := freeEnvironmentAnswersAsSupplied
  unfold Obligations.FreeEnvironmentAnswersAsSupplied at hfree
  exact (hfree.2 i s t supplied n hl ht).1

/-! ### Flash ranges -/

section Ranges

variable {c : Config} {d₀ : Device} {s : State}

/-- The memories are those of `d₀`, and a known cache tells what the instruction register holds. -/
def Coherent (d₀ : Device) (x : IrCache) (d : Device) : Prop :=
  SameData d₀ d ∧ ∀ v, x = .known v → v.toNat = d.ir.toNat

/-- The same with this code in cache and instruction register. -/
def Loaded (d₀ : Device) (code : Nat) (x : IrCache) (d : Device) : Prop :=
  SameData d₀ d ∧ x = loaded code ∧ d.ir.toNat = code

theorem loaded_code {code : Nat} (hcode : code < 16) {v : BitVec 8} (h : loaded code = .known v) :
    v.toNat = code := by
  cases h
  rw [BitVec.toNat_ofNat]
  omega

theorem Loaded.coherent {code : Nat} (hcode : code < 16) {x : IrCache} {d : Device}
    (h : Loaded d₀ code x d) : Coherent d₀ x d := by
  obtain ⟨hdata, hx, hir⟩ := h
  exact ⟨hdata, fun v hv => by rw [hir]; exact loaded_code hcode (hx.symm.trans hv)⟩

theorem Coherent.forget {x : IrCache} {d : Device} (h : Coherent d₀ x d) :
    Coherent d₀ .unknown d := ⟨h.1, nofun⟩

theorem ensureInstruction_loaded {v code : Nat} (hv : v = code) (hcode : code < 16)
    (h : Ref c (Coherent d₀) s) :
    RefRun c (Loaded d₀ code) (Coherent d₀) (ensureInstruction v s) := by
  subst hv
  refine ensureInstruction_ref (fun d hd => ?_) (fun x d hd => ?_)
    (fun x d hd => ⟨hd, hd.forget⟩) h
  · refine ⟨hd.1, rfl, ?_⟩
    rw [← hd.2 _ rfl]
    exact loaded_code hcode rfl
  · refine ⟨hd.1.trans ⟨rfl, rfl, rfl, rfl, rfl, rfl, rfl⟩, rfl, ?_⟩
    rw [BitVec.toNat_ofNat]
    omega

/-- A data scan behind an instruction that is not the pipeline's leaves the memories. -/
theorem writeData_loaded {code w v : Nat} (hcode : code < 16)
    (hother : code = c.irAvrReset ∨ code = c.irProgEnable) (h : Ref c (Loaded d₀ code) s) :
    RefRun c (Loaded d₀ code) (Coherent d₀) (writeData w v s) := by
  refine writeData_ref (fun x d hd => ?_) (fun x d hd => hd.coherent hcode) h
  obtain ⟨hdata, hx, hir⟩ := hd
  have hout : ¬ Selected c d := by
    rintro ⟨hsel, hreset, henable, -⟩
    rw [hir] at hsel
    rcases hother with hc | hc
    · exact hreset (hsel.symm.trans hc)
    · exact henable (hsel.symm.trans hc)
  exact ⟨hdata.trans (scanDr_unselected hout _).1, hx, by rw [scanDr_ir, hir]⟩

theorem runScriptInside_loaded {code : Nat} {words : List CmdWord} (hcode : code < 16)
    (hwords : ∀ w ∈ words, Harmless w) (h : Ref c (Loaded d₀ code) s) :
    RefRun c (Loaded d₀ code) (Coherent d₀) (runScriptInside words s) := by
  refine runScriptInside_ref (runWords_ref (fun w hw x d hd => ?_)
    fun x d hd => hd.coherent hcode) h
  obtain ⟨hdata, hx, hir⟩ := hd
  refine ⟨hdata.trans (scanDr_harmless ?_), hx, by rw [scanDr_ir, hir]⟩
  rw [BitVec.ofNat_toNat, BitVec.setWidth_eq]
  exact hwords w hw

theorem Ref.setPm {Q : IrCache → Device → Prop} (h : Ref c Q s) (pm : Pm) : Ref c Q (setPm pm s) :=
  ⟨h.cfg, h.link, h.holds⟩

/-- A run that ends with what holds inside a session, or coherent with an error. -/
theorem RefRun.coherent {α : Type} {code : Nat} (hcode : code < 16) {r : Run α}
    (h : RefRun c (Loaded d₀ code) (Coherent d₀) r) :
    RefRun c (Coherent d₀) (Coherent d₀) r :=
  h.mono (fun _ _ ht => ht.imp fun _ _ hd => hd.coherent hcode) (fun _ _ _ ht => ht) fun _ ht => ht

variable (hreset : c.irAvrReset < 16) (henable : c.irProgEnable < 16)
  (hcommands : c.irProgCommands < 16)
include hreset henable hcommands

theorem enterSequence_coherent (h : Ref c (Coherent d₀) s) :
    RefRun c (Coherent d₀) (Coherent d₀) (enterSequence s) := by
  refine (ensureInstruction_loaded (congrArg _ h.cfg) hreset h).andThen fun _ t ht => ?_
  refine (writeData_loaded hreset (.inl rfl) ht).andThen fun _ t ht => ?_
  refine (ensureInstruction_loaded (congrArg _ ht.cfg) henable
    ((ht.imp fun _ _ hd => hd.coherent hreset).setPm _)).andThen fun _ t ht => ?_
  refine (writeData_loaded henable (.inr rfl) ht).andThen fun _ t ht => ?_
  refine (ensureInstruction_loaded (congrArg _ ht.cfg) hcommands
    ((ht.imp fun _ _ hd => hd.coherent henable).setPm _)).andThen fun _ t ht => ?_
  exact (ht.imp fun _ _ hd => hd.coherent hcommands).setPm _

theorem exitSequence_coherent (hcmd : c.cmd = referenceCmd) (h : Ref c (Coherent d₀) s) :
    RefRun c (Coherent d₀) (Coherent d₀) (exitSequence s) := by
  refine (ensureInstruction_loaded (congrArg _ h.cfg) hcommands h).andThen fun _ t ht => ?_
  refine (runScriptInside_loaded hcommands (by rw [ht.cfg, hcmd]; exact harmless_of_harmlessAll rfl)
    ht).andThen fun _ t ht => ?_
  refine (ensureInstruction_loaded (congrArg _ ht.cfg) henable
    (ht.imp fun _ _ hd => hd.coherent hcommands)).andThen fun _ t ht => ?_
  refine (writeData_loaded henable (.inr rfl) ht).andThen fun _ t ht => ?_
  refine (ensureInstruction_loaded (congrArg _ ht.cfg) hreset
    ((ht.imp fun _ _ hd => hd.coherent henable).setPm _)).andThen fun _ t ht => ?_
  refine (writeData_loaded hreset (.inl rfl) ht).andThen fun _ t ht => ?_
  exact ((ht.imp fun _ _ hd => hd.coherent hreset).setPm _).setPm _

omit hreset henable in
theorem readPages_coherent (hcmd : c.cmd = referenceCmd) (left : Nat) : ∀ {p : Nat}
    {buf : List Byte} {s : State}, Ref c (Coherent d₀) s →
    RefRun c (Coherent d₀) (Coherent d₀) (readPages left p buf s) := by
  induction left with
  | zero => exact fun h => h
  | succ left ih =>
    intro p buf s h
    have hphase : RefRun c (Loaded d₀ c.irProgCommands) (Coherent d₀)
        (scriptPhase (pageReadScript s.cfg p) s) :=
      (ensureInstruction_loaded (congrArg _ h.cfg) hcommands h).andThen fun _ t ht =>
        runScriptInside_loaded hcommands (pageReadScript_harmless (by rw [h.cfg, hcmd]) p) ht
    have hpage : RefRun c (Coherent d₀) (Coherent d₀) (pageReadBody p s) :=
      (onError_ref hphase).andThen fun _ t ht => ht.imp fun _ _ hd => hd.coherent hcommands
    exact hpage.andThen fun _ t ht => ih ht

theorem readFlashRange_coherent (hcmd : c.cmd = referenceCmd) {b count : Nat}
    (h : Ref c (Coherent d₀) s) :
    RefRun c (Coherent d₀) (Coherent d₀) (readFlashRange b count s) := by
  have henter {s : State} (h : Ref c (Coherent d₀) s) :
      RefRun c (Coherent d₀) (Coherent d₀) (enterProgrammingMode s) := by
    unfold enterProgrammingMode
    split
    case isTrue => exact h
    case isFalse => exact onError_ref (enterSequence_coherent hreset henable hcommands h)
  have hexit {s : State} (h : Ref c (Coherent d₀) s) :
      RefRun c (Coherent d₀) (Coherent d₀) (exitProgrammingMode s) := by
    unfold exitProgrammingMode
    split
    case isTrue => exact h
    case isFalse => exact onError_ref (exitSequence_coherent hreset henable hcommands hcmd h)
  unfold readFlashRange
  split
  case isTrue => exact h
  split
  case isTrue => exact h
  split
  case isTrue => exact h
  split
  case isTrue => exact h
  case isFalse =>
    exact (henter h).andThen fun _ t ht => (readPages_coherent hcommands hcmd _ ht).andThen
      fun buf t ht => (hexit ht).andThen fun _ t ht => ht

end Ranges

/-- An accepted operation under the reference environment. -/
theorem Ref.of_accept {Q : IrCache → Device → Prop} {s : State} {inject : List (Option TransportError)}
    (i : Instr) (hl : s.link = .reference inject) (h : Q s.irCache s.target) :
    Ref s.cfg Q (accept i s) := ⟨rfl, ⟨inject, hl⟩, h⟩

theorem exists_readPlan {i : Instr} (h : isMemoryOp i = true ∧ isWriteOp i = false) (c : Config) :
    ∃ words extract, readPlan c i = some (words, extract) := by
  cases i
  case flashPageRead | eepromRead | fuseHighRead | fuseLowRead | lockRead | fusesLockRead
      | signatureRead | calibrationRead => exact ⟨_, _, rfl⟩
  case chipErase | flashPageWrite | eepromWrite | fuseHighWrite | fuseLowWrite | lockWrite =>
    cases h.2
  all_goals cases h.1

/-- Settles O55: the free environment reaches no target; on the reference device no word of a read is a
pulse word, and a range read sends its wide scans behind the reset and enable instructions only. -/
theorem readsLeaveTheTargetsMemories : Obligations.ReadsLeaveTheTargetsMemories := by
  unfold Obligations.ReadsLeaveTheTargetsMemories
  intro i s t hcmd hi ht
  have hsame : SameData s.target t.target := by
    cases hl : s.link with
    | free supplied n => rw [exec_free_target hl ht]; exact .refl _
    | reference inject =>
      rcases hi with hi | ⟨⟨b, count, rfl⟩, hc, hcoherent⟩
      · obtain ⟨words, extract, hplan⟩ := exists_readPlan hi s.cfg
        rw [exec_readPlan hplan] at ht
        cases ht
        exact finish_ref (R := DataOf s.target) (readOperation_ref (readPlan_harmless hcmd hplan)
          (Ref.of_accept i hl (.refl _))) (fun _ _ hd => hd) fun _ _ hd => hd
      · obtain ⟨-, -, -, -, -, -, -, -, -, -, -, ⟨hreset, henable, hcommands⟩, -⟩ := configOk_iff.mp hc
        rw [exec_readFlashRange] at ht
        cases ht
        exact (finish_ref (R := Coherent s.target) (readFlashRange_coherent hreset henable hcommands
          hcmd (Ref.of_accept _ hl ⟨.refl _, hcoherent⟩)) (fun _ _ hd => hd) fun _ _ hd => hd).1
  exact ⟨hsame.flash, hsame.eeprom, hsame.fuseHi, hsame.fuseLo, hsame.lock, hsame.sig, hsame.cal⟩

end Sys2Proof.Machine

/-! PROOF. A page write on the reference device, however it ends (44_memory_ops section 3,
47_reference_device section 3): it leaves everything outside its page. -/

namespace Sys2Proof.Machine

/-! ### Addresses of a page -/

theorem append_byte_toNat (h l : Byte) : (h ++ l).toNat = h.toNat * 256 + l.toNat := by
  rw [BitVec.toNat_append, ← Nat.shiftLeft_add_eq_or_of_lt l.isLt, Nat.shiftLeft_eq]

/-- Two address words load the address of their bytes. -/
theorem address_toNat {a : Nat} (h : a < 65536) :
    (addrHighByte a ++ addrLowByte a).toNat = a := by
  rw [append_byte_toNat, addrHighByte_toNat h, addrLowByte_toNat]
  omega

/-- A page does not cross a border of 256 words: one high byte serves all its words (44_memory_ops R251). -/
theorem page_high_byte {c : Config} (hc : configOk c = true) {p k : Nat} (hk : k < c.pageWords) :
    addrHighByte (p * c.pageWords) = addrHighByte (p * c.pageWords + k) := by
  obtain ⟨-, ⟨j, hpow⟩, hpos, hle, -⟩ := configOk_iff.mp hc
  have hj : j ≤ 8 := (Nat.pow_le_pow_iff_right (by decide)).mp (hpow ▸ hle)
  obtain ⟨q, hq⟩ : c.pageWords ∣ 256 := hpow ▸ Nat.pow_dvd_pow 2 hj
  have hpage (i : Nat) (hi : i < c.pageWords) : (p * c.pageWords + i) / 256 = p / q := by
    rw [hq, ← Nat.div_div_eq_div_mul, Nat.mul_comm, Nat.mul_add_div hpos, Nat.div_eq_of_lt hi,
      Nat.add_zero]
  rw [addrHighByte, addrHighByte, Nat.shiftRight_eq_div_pow, Nat.shiftRight_eq_div_pow, hpage k hk]
  exact congrArg _ (hpage 0 hpos)

/-- The commit address of any word of a page is the page's first word (47_reference_device R310). -/
theorem page_of_word {c : Config} {p k : Nat} (hk : k < c.pageWords) :
    p * c.pageWords + k - (p * c.pageWords + k) % c.pageWords = p * c.pageWords := by
  rw [Nat.mul_comm, Nat.mul_add_mod, Nat.mod_eq_of_lt hk, Nat.add_sub_cancel]

/-! ### What stays outside a page -/

/-- Everything outside the page of `base` is as in `d₀`, and the page buffer has a page's words. -/
structure OutsidePage (c : Config) (base : Nat) (d₀ d : Device) : Prop where
  flash : ∀ a, a < 2 * base ∨ 2 * (base + c.pageWords) ≤ a →
    Memory.read a d.flash = Memory.read a d₀.flash
  eeprom : d.eeprom = d₀.eeprom
  fuseHi : d.fuseHi = d₀.fuseHi
  fuseLo : d.fuseLo = d₀.fuseLo
  lock : d.lock = d₀.lock
  sig : d.sig = d₀.sig
  cal : d.cal = d₀.cal
  buffer : d.pagebuf.length = c.pageWords

section Outside

variable {c : Config} {base : Nat} {d₀ d d' : Device}

theorem OutsidePage.of_sameData (h : OutsidePage c base d₀ d) (hdata : SameData d d')
    (hbuf : d'.pagebuf.length = d.pagebuf.length) : OutsidePage c base d₀ d' where
  flash a ha := by rw [hdata.flash]; exact h.flash a ha
  eeprom := hdata.eeprom.trans h.eeprom
  fuseHi := hdata.fuseHi.trans h.fuseHi
  fuseLo := hdata.fuseLo.trans h.fuseLo
  lock := hdata.lock.trans h.lock
  sig := hdata.sig.trans h.sig
  cal := hdata.cal.trans h.cal
  buffer := hbuf.trans h.buffer

theorem sameData_of_data (h : d.data = d'.data) : SameData d' d :=
  ⟨(congrArg Device.flash h :), (congrArg Device.eeprom h :), (congrArg Device.fuseHi h :),
    (congrArg Device.fuseLo h :), (congrArg Device.lock h :), (congrArg Device.sig h :),
    (congrArg Device.cal h :)⟩

theorem latch_pagebuf_length (d : Device) : (d.latch c).pagebuf.length = d.pagebuf.length := by
  unfold Device.latch
  split
  case h_1 => exact List.length_set
  all_goals rfl

theorem effect_pagebuf_length {w : CmdWord} (hw : Harmless w) (d : Device) :
    (d.effect c w).pagebuf.length = d.pagebuf.length := by
  unfold Device.effect
  split_ifs
  case pos | pos | pos | pos | pos | pos => rfl
  case pos => exact latch_pagebuf_length d
  case neg => rw [pulse_harmless hw]

theorem OutsidePage.harmless {w : CmdWord} (hw : Harmless w) (h : OutsidePage c base d₀ d) :
    OutsidePage c base d₀ (d.effect c w) :=
  h.of_sameData (effect_sameData hw d) (effect_pagebuf_length hw d)

/-- A commit at a word of the page stays inside the page. -/
theorem OutsidePage.commit {p k : Nat} (hp : p * c.pageWords + c.pageWords ≤ c.flashWords)
    (hk : k < c.pageWords) (haddr : d.address = p * c.pageWords + k)
    (h : OutsidePage c (p * c.pageWords) d₀ d) :
    OutsidePage c (p * c.pageWords) d₀ (d.commitPage c).strobe := by
  have hwa : d.wordAddress c = p * c.pageWords + k := by
    rw [Device.wordAddress, haddr, addressIn_eq (by omega), Nat.mod_eq_of_lt (by omega)]
  have hflash : (d.commitPage c).strobe.flash =
      Memory.writeWords (p * c.pageWords) d.pagebuf d.flash := by
    rw [← page_of_word (p := p) hk, ← hwa]
    rfl
  refine ⟨fun a ha => ?_, h.eeprom, h.fuseHi, h.fuseLo, h.lock, h.sig, h.cal, List.length_replicate⟩
  rw [hflash, Memory.read_writeWords_other _ _ _ (by rw [h.buffer]; exact ha)]
  exact h.flash a ha

end Outside

/-! ### The phases of a page write -/

/-- Everything outside the page is kept, and a device whose pipeline is reached meets `A` in mode and
address registers. -/
def Phase (c : Config) (base : Nat) (d₀ : Device) (A : SubMode → Byte → Byte → Prop) (_ : IrCache)
    (d : Device) : Prop :=
  OutsidePage c base d₀ d ∧ (Selected c d → A d.mode d.ah d.al)

/-- The mode of the page write, with the page's high address byte. -/
def InPage (base : Nat) (mode : SubMode) (ah _al : Byte) : Prop :=
  mode = .flashWrite ∧ ah = addrHighByte base

/-- The same with the low address byte of one of the page's words. -/
def AtWord (c : Config) (base : Nat) (mode : SubMode) (ah al : Byte) : Prop :=
  InPage base mode ah al ∧ ∃ k < c.pageWords, al = addrLowByte (base + k)

section Phases

variable {c : Config} {base : Nat} {d₀ d : Device} {x : IrCache}
  {A A' : SubMode → Byte → Byte → Prop}

theorem Phase.imp (hA : ∀ m ah al, A m ah al → A' m ah al) (h : Phase c base d₀ A x d) :
    Phase c base d₀ A' x d := ⟨h.1, fun hsel => hA _ _ _ (h.2 hsel)⟩

/-- One word of the pipeline: its effect alone decides, and without the pipeline nothing happens. -/
theorem Phase.word {w : CmdWord} (h : Phase c base d₀ A x d)
    (hw : ∀ d, OutsidePage c base d₀ d → A d.mode d.ah d.al →
      OutsidePage c base d₀ (d.effect c w) ∧
        A' (d.effect c w).mode (d.effect c w).ah (d.effect c w).al) :
    Phase c base d₀ A' x (d.scanDr c w.toNat).2 := by
  obtain ⟨hout, haim⟩ := h
  by_cases hsel : Selected c d
  · obtain ⟨hout', haim'⟩ := hw d hout (haim hsel)
    have hdata := shift_data c w d
    rw [scanDr_selected hsel, BitVec.ofNat_toNat, BitVec.setWidth_eq]
    refine ⟨hout'.of_sameData (sameData_of_data hdata)
      (congrArg (fun d => d.pagebuf.length) hdata :), fun _ => ?_⟩
    have hmode : (d.shift c w).mode = (d.effect c w).mode := (congrArg Device.mode hdata :)
    have hah : (d.shift c w).ah = (d.effect c w).ah := (congrArg Device.ah hdata :)
    have hal : (d.shift c w).al = (d.effect c w).al := (congrArg Device.al hdata :)
    rw [hmode, hah, hal]
    exact haim'
  · obtain ⟨hdata, hbuf, hstill⟩ := scanDr_unselected hsel w.toNat
    exact ⟨hout.of_sameData hdata (by rw [hbuf]), fun hsel' => absurd hsel' hstill⟩

theorem effect_3700 (d : Device) : d.effect c 0x3700 = d := by
  have hpulse : d.effect c 0x3700 = d.pulse c 0x3700 := rfl
  rw [hpulse, pulse_harmless ⟨by decide, by decide, by decide⟩]

theorem effect_7700_registers (d : Device) : (d.effect c 0x7700).mode = d.mode ∧
    (d.effect c 0x7700).ah = d.ah ∧ (d.effect c 0x7700).al = d.al := by
  have hlatch : d.effect c 0x7700 = d.latch c := rfl
  rw [hlatch, Device.latch_frame]
  exact ⟨rfl, rfl, rfl⟩

end Phases

section PageWrite

variable {c : Config} {p : Nat} {data : List Nat} {d₀ d : Device}

/-- What a word does to a device at a word of its page: it stays there, and outside the page nothing
changes. -/
def StaysAtWord (c : Config) (base : Nat) (w : CmdWord) : Prop :=
  ∀ d₀ d : Device, OutsidePage c base d₀ d → AtWord c base d.mode d.ah d.al →
    OutsidePage c base d₀ (d.effect c w) ∧
      AtWord c base (d.effect c w).mode (d.effect c w).ah (d.effect c w).al

theorem staysAtWord_addrLo {base k : Nat} (hk : k < c.pageWords) :
    StaysAtWord c base (addrLoWord referenceCmd (addrLowByte (base + k))) := by
  intro d₀ d hout haim
  refine ⟨hout.harmless (harmless_addrLo _), ?_⟩
  rw [effect_addrLo]
  exact ⟨haim.1, k, hk, rfl⟩

theorem staysAtWord_dataLo (base : Nat) (b : Byte) :
    StaysAtWord c base (dataLoWord referenceCmd b) := by
  intro d₀ d hout haim
  refine ⟨hout.harmless (harmless_dataLo _), ?_⟩
  rw [effect_dataLo]
  exact haim

theorem staysAtWord_dataHi (base : Nat) (b : Byte) :
    StaysAtWord c base (dataHiWord referenceCmd b) := by
  intro d₀ d hout haim
  refine ⟨hout.harmless (harmless_dataHi _), ?_⟩
  rw [effect_dataHi]
  exact haim

theorem staysAtWord_3700 (base : Nat) : StaysAtWord c base 0x3700 := by
  intro d₀ d hout haim
  rw [effect_3700]
  exact ⟨hout, haim⟩

theorem staysAtWord_7700 (base : Nat) : StaysAtWord c base 0x7700 := by
  intro d₀ d hout haim
  obtain ⟨hmode, hah, hal⟩ := effect_7700_registers (c := c) d
  refine ⟨hout.harmless ⟨by decide, by decide, by decide⟩, ?_⟩
  rw [hmode, hah, hal]
  exact haim

/-- The pulse word commits the page whose word the address register holds (47_reference_device R310). -/
theorem staysAtWord_3500 (hc : configOk c = true)
    (hp : p * c.pageWords + c.pageWords ≤ c.flashWords) :
    StaysAtWord c (p * c.pageWords) 0x3500 := by
  intro d₀ d hout haim
  obtain ⟨⟨hmode, hah⟩, k, hk, hal⟩ := id haim
  obtain ⟨-, -, -, -, -, hflash, -⟩ := configOk_iff.mp hc
  have hpulse : d.effect c 0x3500 = d.pulse c 0x3500 := rfl
  have hcommit : d.pulse c 0x3500 = (d.commitPage c).strobe := by
    rw [Device.pulse, hmode]
    exact if_pos rfl
  have haddr : d.address = p * c.pageWords + k := by
    rw [Device.address, hah, hal, page_high_byte hc hk]
    exact address_toNat (by omega)
  rw [hpulse, hcommit]
  exact ⟨hout.commit hp hk haddr, haim⟩

section Script

variable (hc : configOk c = true) (hcmd : c.cmd = referenceCmd)
  (hp : p * c.pageWords + c.pageWords ≤ c.flashWords)
include hcmd

theorem pageWriteGroup_staysAtWord {base k : Nat} (hk : k < c.pageWords) :
    ∀ w ∈ pageWriteGroup c base data k, StaysAtWord c base w := by
  rw [pageWriteGroup, hcmd]
  exact List.forall_mem_cons.mpr ⟨staysAtWord_addrLo hk, List.forall_mem_cons.mpr
    ⟨staysAtWord_dataLo _ _, List.forall_mem_cons.mpr ⟨staysAtWord_dataHi _ _,
      List.forall_mem_cons.mpr ⟨staysAtWord_3700 _, List.forall_mem_cons.mpr ⟨staysAtWord_7700 _,
        List.forall_mem_cons.mpr ⟨staysAtWord_3700 _, nofun⟩⟩⟩⟩⟩⟩

/-- The words of a page write after the high address byte: the groups and the commit. -/
def pageWriteBody (c : Config) (p : Nat) (data : List Nat) : List CmdWord :=
  (List.range c.pageWords).flatMap (pageWriteGroup c (p * c.pageWords) data)
    ++ seq4Words c.cmd.fwWrite

omit hcmd in
theorem pageWriteScript_eq : pageWriteScript c p data = c.cmd.fwEnter ::
    addrHiWord c.cmd (addrHighByte (p * c.pageWords)) :: pageWriteBody c p data := rfl

omit hcmd in
/-- A page has a first word. -/
theorem pageWriteBody_eq (hpos : 1 ≤ c.pageWords) : ∃ rest, pageWriteBody c p data =
    addrLoWord c.cmd (addrLowByte (p * c.pageWords + 0)) :: rest := by
  obtain ⟨n, hn⟩ := Nat.exists_eq_add_of_le' hpos
  rw [pageWriteBody, hn, List.range_succ_eq_map, List.flatMap_cons]
  exact ⟨_, rfl⟩

include hc hp in
theorem pageWriteBody_staysAtWord :
    ∀ w ∈ pageWriteBody c p data, StaysAtWord c (p * c.pageWords) w := by
  refine List.forall_mem_append.mpr ⟨fun w hw => ?_, ?_⟩
  · obtain ⟨k, hk, hw⟩ := List.mem_flatMap.mp hw
    exact pageWriteGroup_staysAtWord hcmd (List.mem_range.mp hk) w hw
  · rw [hcmd]
    exact List.forall_mem_cons.mpr ⟨staysAtWord_3700 _, List.forall_mem_cons.mpr
      ⟨staysAtWord_3500 hc hp, List.forall_mem_cons.mpr ⟨staysAtWord_3700 _,
        List.forall_mem_cons.mpr ⟨staysAtWord_3700 _, nofun⟩⟩⟩⟩

end Script

/-- Everything outside the page, whatever the cache holds. -/
def OutsideOf (c : Config) (base : Nat) (d₀ : Device) (_ : IrCache) (d : Device) : Prop :=
  OutsidePage c base d₀ d

section Runs

variable {s : State} (hc : configOk c = true) (hcmd : c.cmd = referenceCmd)
  (hp : p * c.pageWords + c.pageWords ≤ c.flashWords)
include hc hcmd hp

/-- The script: the mode, the page's high address byte, its first low address byte, and then words that
stay at a word of the page. -/
theorem pageWriteWords_phase (h : Ref c (OutsideOf c (p * c.pageWords) d₀) s) :
    RefRun c (Phase c (p * c.pageWords) d₀ (AtWord c (p * c.pageWords)))
      (OutsideOf c (p * c.pageWords) d₀)
      (runWords ((pageWriteScript c p data).map BitVec.toNat) s) := by
  have hpos : 1 ≤ c.pageWords := (configOk_iff.mp hc).2.2.1
  have hbody := pageWriteBody_staysAtWord (data := data) hc hcmd hp
  obtain ⟨rest, hrest⟩ := pageWriteBody_eq (p := p) (data := data) hpos
  rw [hrest, List.forall_mem_cons] at hbody
  rw [pageWriteScript_eq, hrest, hcmd]
  have hstart : Ref c (Phase c (p * c.pageWords) d₀ fun _ _ _ => True) s :=
    h.imp fun _ _ hout => ⟨hout, fun _ => trivial⟩
  refine runWords_cons_ref (Q' := Phase c (p * c.pageWords) d₀ fun m _ _ => m = .flashWrite)
    (fun x d hd => hd.word fun d hout _ => ⟨hout.harmless ⟨by decide, by decide, by decide⟩, rfl⟩)
    (fun x d hd => hd.1) (fun h => ?_) hstart
  refine runWords_cons_ref (Q' := Phase c (p * c.pageWords) d₀ (InPage (p * c.pageWords)))
    (fun x d hd => hd.word fun d hout hmode => ⟨hout.harmless (harmless_addrHi _),
      by rw [effect_addrHi]; exact ⟨hmode, rfl⟩⟩) (fun x d hd => hd.1) (fun h => ?_) h
  refine runWords_cons_ref (Q' := Phase c (p * c.pageWords) d₀ (AtWord c (p * c.pageWords)))
    (fun x d hd => hd.word fun d hout hin => ⟨hout.harmless (harmless_addrLo _),
      by rw [effect_addrLo]; exact ⟨hin, 0, hpos, rfl⟩⟩) (fun x d hd => hd.1) (fun h => ?_) h
  exact runWords_ref (fun w hw x d hd => hd.word (hbody.2 w hw d₀)) (fun x d hd => hd.1) h

theorem pageWrite_ref (h : Ref c (OutsideOf c (p * c.pageWords) d₀) s) :
    RefRun c (OutsideOf c (p * c.pageWords) d₀) (OutsideOf c (p * c.pageWords) d₀)
      (writeOperation true (pageWriteScript c p data) c.cmd.fwPoll s) := by
  have hload : RefRun c (OutsideOf c (p * c.pageWords) d₀) (OutsideOf c (p * c.pageWords) d₀)
      (ensureInstruction s.cfg.irProgCommands s) :=
    ensureInstruction_ref (fun d hd => hd) (fun x d hd => ⟨hd.flash, hd.eeprom, hd.fuseHi, hd.fuseLo,
      hd.lock, hd.sig, hd.cal, hd.buffer⟩) (fun _ _ hd => ⟨hd, hd⟩) h
  have hphase : RefRun c (Phase c (p * c.pageWords) d₀ (AtWord c (p * c.pageWords)))
      (OutsideOf c (p * c.pageWords) d₀) (scriptPhase (pageWriteScript c p data) s) :=
    hload.andThen fun _ _ ht => runScriptInside_ref (pageWriteWords_phase hc hcmd hp) ht
  have hpoll {t : State} (ht : Ref c (Phase c (p * c.pageWords) d₀ (AtWord c (p * c.pageWords))) t) :
      RefRun c (Phase c (p * c.pageWords) d₀ (AtWord c (p * c.pageWords)))
        (OutsideOf c (p * c.pageWords) d₀) (busyPoll c.cmd.fwPoll t) := by
    rw [hcmd]
    exact busyPoll_ref (fun x d hd => hd.word (staysAtWord_3700 _ d₀)) (fun x d hd => hd.1) ht
  unfold writeOperation
  split
  case isTrue => exact h
  split
  case isTrue => exact h
  case isFalse =>
    exact (onError_ref (hphase.andThen fun _ _ ht => hpoll ht)).andThen fun _ _ ht =>
      ht.imp fun _ _ hd => hd.1

end Runs

end PageWrite

theorem writeOperation_false_target (words : List CmdWord) (pollWord : CmdWord) (s : State) :
    (finish (writeOperation false words pollWord s)).target = s.target := by
  by_cases hpm : s.pm = .commandsActive
  · rw [writeOperation_invalid hpm]
    rfl
  · rw [writeOperation_inactive hpm]
    rfl

/-- Settles O51: the free environment reaches no target; on the reference device the address register
stays in the page from the first low address word on, so the one commit is the page's. -/
theorem flashPageWriteTouchesItsPageOnly : Obligations.FlashPageWriteTouchesItsPageOnly := by
  unfold Obligations.FlashPageWriteTouchesItsPageOnly
  intro s t p data hc hcmd hbuf ht
  have hstart : OutsidePage s.cfg (p * s.cfg.pageWords) s.target s.target :=
    ⟨fun _ _ => rfl, rfl, rfl, rfl, rfl, rfl, rfl, hbuf⟩
  have hout : OutsidePage s.cfg (p * s.cfg.pageWords) s.target t.target := by
    cases hl : s.link with
    | free supplied n => rw [exec_free_target hl ht]; exact hstart
    | reference inject =>
      rw [exec_writePlan rfl] at ht
      cases ht
      cases hvalid : argsOk s.cfg (.flashPageWrite p data) with
      | false => rw [writeOperation_false_target]; exact hstart
      | true =>
        have hp := page_in_flash (argsOk_iff.mp hvalid).1
        exact finish_ref (R := OutsideOf s.cfg (p * s.cfg.pageWords) s.target)
          (pageWrite_ref hc hcmd hp (Ref.of_accept _ hl hstart)) (fun _ _ hd => hd) fun _ _ hd => hd
  refine ⟨fun a ha => hout.flash a ?_, hout.eeprom, hout.fuseHi, hout.fuseLo, hout.lock, hout.sig,
    hout.cal⟩
  rw [← Nat.succ_mul]
  exact ha

end Sys2Proof.Machine

/-! PROOF. Memory operations in a session on the reference device (44_memory_ops sections 1 to 7,
47_reference_device section 3): what a script captures from a device that is not busy, and how a write with
its polls ends when the device clears within the budget. -/

namespace Sys2Proof.Machine

/-! ### Scripts in a session -/

/-- Scans reach the device's command-word pipeline, and no failure is injected. -/
structure OnPipeline (s : State) : Prop where
  bound : s.cfg.tapBound = true
  link : s.link = .reference []
  selected : Selected s.cfg s.target

/-- A session open on the reference device: what an operation needs to run its script there. -/
structure InSession (s : State) : Prop extends OnPipeline s where
  legal : configOk s.cfg = true
  cmd : s.cfg.cmd = referenceCmd
  pm : s.pm = .commandsActive
  cache : s.irCache = loaded s.cfg.irProgCommands

theorem ReferenceSession.inSession {s : State} (h : ReferenceSession s) : InSession s := by
  obtain ⟨hc, hb, hcmd, hl, hpm, hx, hsel, -⟩ := h
  exact ⟨⟨hb, hl, hsel⟩, hc, hcmd, hpm, hx⟩

/-- What a script captures: the response from before each word (47_reference_device R306). -/
def scriptCaptures (c : Config) (words : List CmdWord) (d : Device) : List CmdWord :=
  (List.range words.length).map fun k => (shiftAll c (words.take k) d).resp

/-- The capture behind a word of the script is the response to that word. -/
theorem captureAt_scriptCaptures {c : Config} {before after : List CmdWord} {w : CmdWord} (d : Device)
    (hafter : after ≠ []) {n : Nat} (hn : n = before.length + 1) :
    captureAt (scriptCaptures c (before ++ w :: after) d) n =
      (shiftAll c (before ++ [w]) d).resp := by
  subst hn
  have hpos := List.length_pos_iff.mpr hafter
  have htake : (before ++ w :: after).take (before.length + 1) = before ++ [w] := by
    rw [List.take_length_add_append]
    rfl
  have hlt : before.length + 1 < (before ++ w :: after).length := by
    rw [List.length_append, List.length_cons]
    omega
  rw [captureAt, scriptCaptures, List.getD_eq_getElem _ _ (by simpa using hlt), List.getElem_map,
    List.getElem_range, htake]

/-- A quiet device answers a word of a harmless script with the word's read data (R306, R311). -/
theorem captureAt_quiet {c : Config} {words before after : List CmdWord} {w : CmdWord} {d : Device}
    (hwords : ∀ v ∈ words, Harmless v) (hq : Quiet d) (hsplit : words = before ++ w :: after)
    (hafter : after ≠ []) {n : Nat} (hn : n = before.length + 1) :
    captureAt (scriptCaptures c words d) n =
      ((effectAll c (before ++ [w]) d).readData c w).setWidth 15 := by
  subst hsplit
  rw [captureAt_scriptCaptures d hafter hn]
  exact shiftAll_resp_quiet (fun v hv => hwords v (List.mem_append_left _ hv))
    (hwords w (List.mem_append_right _ List.mem_cons_self)) hq

section Session

variable {s : State}

theorem OnPipeline.answerScans (h : OnPipeline s) (words : List CmdWord) :
    answerScans (drScans (words.map BitVec.toNat)) s =
      (oks ((scriptCaptures s.cfg words s.target).map BitVec.toNat),
        { s with target := shiftAll s.cfg words s.target }) := by
  have hcaptures : deviceCaptures s.cfg (drScans (words.map BitVec.toNat)) s.target =
      (scriptCaptures s.cfg words s.target).map BitVec.toNat := by
    rw [deviceCaptures_drScans _ h.selected, scriptCaptures, List.length_map, List.map_map]
    refine List.map_congr_left fun k _ => ?_
    rw [← List.map_take, deviceAfter_toNat]
    rfl
  rw [answerScans_reference _ h.link, hcaptures, deviceScans_drScans _ h.selected, deviceAfter_toNat]

theorem OnPipeline.runScriptInside (h : OnPipeline s) (words : List CmdWord) :
    runScriptInside words s = .ok (scriptCaptures s.cfg words s.target)
      { scanned (drScans (words.map BitVec.toNat))
          { s with target := shiftAll s.cfg words s.target } with
        caps := scriptCaptures s.cfg words s.target } := by
  have hcut : (((scriptCaptures s.cfg words s.target).map BitVec.toNat).map (BitVec.ofNat 15)) =
      scriptCaptures s.cfg words s.target := by
    rw [List.map_map]
    exact (List.map_congr_left fun w _ => by simp).trans (List.map_id _)
  rw [runScriptInside_ok h.bound (h.answerScans words), hcut]

theorem InSession.scriptPhase (h : InSession s) (words : List CmdWord) :
    scriptPhase words s = .ok (scriptCaptures s.cfg words s.target)
      { scanned (drScans (words.map BitVec.toNat))
          { s with target := shiftAll s.cfg words s.target } with
        caps := scriptCaptures s.cfg words s.target } := by
  rw [Machine.scriptPhase, ensureInstruction_hit h.cache, Run.andThen_ok, h.runScriptInside]

theorem InSession.accept (h : InSession s) (i : Instr) : InSession (accept i s) :=
  ⟨⟨h.bound, h.link, h.selected⟩, h.legal, h.cmd, h.pm, h.cache⟩

/-- A read in a session on the reference device completes with its bytes of the captures. -/
theorem InSession.exec_read (h : InSession s) {i : Instr} {words : List CmdWord}
    {extract : List CmdWord → List Byte} (hplan : readPlan s.cfg i = some (words, extract))
    (hvalid : validArgs s.cfg i) :
    exec i s = .next (ended { s with target := shiftAll s.cfg words s.target }
      (drScans (words.map BitVec.toNat))
      (.ok (.bytes (extract (scriptCaptures s.cfg words s.target))))) := by
  have hpm : (Machine.accept i s).pm = .commandsActive := h.pm
  rw [exec_readPlan hplan, argsOk_iff.mpr hvalid, readOperation, if_neg (not_not.mpr hpm), if_neg nofun,
    (h.accept i).scriptPhase]
  rfl

end Session

/-! ### A device behind its pulse word -/

/-- In this mode the word has no effect and reads no data: a poll word of the mode. -/
def Inert (c : Config) (mode : SubMode) (w : CmdWord) : Prop :=
  ∀ d : Device, d.mode = mode → d.effect c w = d ∧ d.readData c w = 0

/-- In this mode the word is the pulse: it is no enter word, and it starts the strobe (R310). -/
def Fires (c : Config) (mode : SubMode) (w : CmdWord) : Prop :=
  wordOp7 w ≠ 0x23 ∧ ∀ d : Device, d.mode = mode → (d.effect c w).trig = 2

/-- Only an enter word moves the mode (R307). -/
theorem effect_mode {c : Config} {w : CmdWord} (hw : wordOp7 w ≠ 0x23) (d : Device) :
    (d.effect c w).mode = d.mode := by
  unfold Device.effect
  rw [if_neg hw]
  split_ifs
  case pos | pos | pos | pos | pos => rfl
  case pos => rw [Device.latch_frame]
  case neg => rw [Device.pulse_frame]

/-- The device with its strobe over and so many busy responses to give. -/
def Device.awaiting (c : Config) (d : Device) (r : Nat) : Device :=
  { d with
    trig := 0
    rem := .finite r
    resp := if r ≠ 0 then BitVec.ofNat 15 (2 ^ c.busyBit) else 0 }

section Polls

variable {c : Config} {d : Device} {w : CmdWord} {mode : SubMode}

theorem Inert.shift (hw : Inert c mode w) (hmode : d.mode = mode) : d.shift c w =
    { d.tick with resp := if d.tick.busy then BitVec.ofNat 15 (2 ^ c.busyBit) else 0 } := by
  have htick : d.tick.mode = mode := by rw [Device.tick_frame]; exact hmode
  obtain ⟨heffect, hread⟩ := hw d.tick htick
  have hshift : d.shift c w =
      { d.tick.effect c w with resp := (d.tick.effect c w).response c w } := rfl
  have hresp : d.tick.response c w =
      if d.tick.busy then BitVec.ofNat 15 (2 ^ c.busyBit) else 0 := by simp [Device.response, hread]
  rw [hshift, heffect, hresp]

theorem Inert.shift_awaiting (hw : Inert c mode w) (hmode : d.mode = mode) (r : Nat) :
    (d.awaiting c r).shift c w = d.awaiting c (r - 1) := by
  rw [Inert.shift (d := d.awaiting c r) hw hmode]
  rcases r with _ | r
  · rfl
  · simp [Device.awaiting, Device.tick, Device.busy, BusyCount.positive, BusyCount.pred]

/-- Two words after the pulse the strobe is over, and the busy responses begin (R301, R306). -/
theorem Inert.shift_strobe (hw : Inert c mode w) (hmode : d.mode = mode) (htrig : d.trig = 2)
    {k : Nat} (hbusy : d.busyK = .finite k) : shiftAll c [w, w] d = d.awaiting c k := by
  have hfirst : d.tick = { d with trig := 1 } := by simp [Device.tick, htrig]
  have hshift := hw.shift hmode
  rw [hfirst] at hshift
  have hsecond : (d.shift c w).tick = { d.shift c w with trig := 0, rem := .finite k } := by
    rw [hshift]
    simp [Device.tick, hbusy]
  have hmode' : (d.shift c w).mode = mode := by rw [hshift]; exact hmode
  have hlast := hw.shift hmode'
  rw [hsecond, hshift] at hlast
  show (d.shift c w).shift c w = _
  rw [hshift, hlast]
  simp [Device.awaiting, Device.busy, BusyCount.positive]

/-- The polls of a device that is still busy `k` times: `k` busy captures and then a clear one. -/
theorem Inert.polls (hw : Inert c mode w) (hmode : d.mode = mode) (hbit : c.busyBit ≤ 14)
    (hsel : Selected c d) (k : Nat) :
    deviceCaptures c (drScans (List.replicate (k + 1) w.toNat)) (d.awaiting c k) =
      List.replicate k (2 ^ c.busyBit) ++ [0] ∧
    deviceScans c (drScans (List.replicate (k + 1) w.toNat)) (d.awaiting c k) = d.awaiting c 0 := by
  have hscan (r : Nat) : deviceScan c (.dr 15 w.toNat) (d.awaiting c r) =
      ((d.awaiting c r).resp.toNat, d.awaiting c (r - 1)) := by
    have hsel' : Selected c (d.awaiting c r) := hsel
    rw [← hw.shift_awaiting hmode r]
    exact (scanDr_selected hsel' _).trans (by rw [BitVec.ofNat_toNat, BitVec.setWidth_eq])
  induction k with
  | zero =>
    refine ⟨?_, ?_⟩
    · show [(deviceScan c (.dr 15 w.toNat) (d.awaiting c 0)).1] = [0]
      rw [hscan]
      rfl
    · show (deviceScan c (.dr 15 w.toNat) (d.awaiting c 0)).2 = _
      rw [hscan]
  | succ k ih =>
    obtain ⟨hcaps, hend⟩ := ih
    have hbusy : (d.awaiting c (k + 1)).resp.toNat = 2 ^ c.busyBit := by
      show (BitVec.ofNat 15 (2 ^ c.busyBit)).toNat = _
      rw [BitVec.toNat_ofNat]
      exact Nat.mod_eq_of_lt (Nat.pow_lt_pow_right (by decide) (by omega))
    refine ⟨?_, ?_⟩
    · show (deviceScan c (.dr 15 w.toNat) (d.awaiting c (k + 1))).1 ::
        deviceCaptures c (drScans (List.replicate (k + 1) w.toNat))
          (deviceScan c (.dr 15 w.toNat) (d.awaiting c (k + 1))).2 = _
      rw [hscan, hbusy]
      exact congrArg _ hcaps
    · show deviceScans c (drScans (List.replicate (k + 1) w.toNat))
        (deviceScan c (.dr 15 w.toNat) (d.awaiting c (k + 1))).2 = _
      rw [hscan]
      exact hend

end Polls

/-! ### Writes in a session -/

theorem shiftAll_busyK (c : Config) (words : List CmdWord) : ∀ d : Device,
    (shiftAll c words d).busyK = d.busyK := by
  induction words with
  | nil => exact fun _ => rfl
  | cons w words ih => exact fun d => (ih _).trans (Device.shift_fixed c w d).2.2.2.2.2

section Writes

variable {s : State} {i : Instr} {pre : List CmdWord} {pulse w : CmdWord} {mode : SubMode} {k : Nat}

/-- The device when the polls of a write begin: the effects of the words up to the pulse, and `BUSY_K`
busy responses to give. -/
theorem shiftAll_write {c : Config} {d : Device} (hbusy : d.busyK = .finite k)
    (hmode : (effectAll c (pre ++ [pulse]) d).mode = mode) (hfires : Fires c mode pulse)
    (hinert : Inert c mode w) :
    shiftAll c (pre ++ [pulse, w, w]) d =
      Device.awaiting c (effectAll c (pre ++ [pulse]) d).data k := by
  obtain ⟨hpulse, hstrobe⟩ := hfires
  have hpre : (shiftAll c pre d).tick.mode = mode := by
    have hlast : (effectAll c (pre ++ [pulse]) d).mode = (effectAll c pre d).mode := by
      rw [effectAll_append]
      exact effect_mode hpulse _
    rw [Device.tick_frame, ← hmode, hlast]
    exact (congrArg Device.mode (shiftAll_data c pre (d := d) rfl) :)
  have htrig := hstrobe _ hpre
  have hmode' := (effect_mode (c := c) hpulse (shiftAll c pre d).tick).trans hpre
  have hsplit : shiftAll c (pre ++ [pulse, w, w]) d =
      shiftAll c [w, w] (shiftAll c (pre ++ [pulse]) d) := by
    rw [← shiftAll_append, List.append_assoc]
    rfl
  have hlast : shiftAll c (pre ++ [pulse]) d = (shiftAll c pre d).shift c pulse := by
    rw [shiftAll_append]
    rfl
  have hk : (shiftAll c (pre ++ [pulse]) d).busyK = .finite k := (shiftAll_busyK _ _ _).trans hbusy
  have hdata := shiftAll_data c (pre ++ [pulse]) (d := d) rfl
  rw [hsplit, hinert.shift_strobe (by rw [hlast]; exact hmode') (by rw [hlast]; exact htrig) hk,
    ← hdata]
  rfl

/-- The busy-poll of a device that is still busy `k` times, within the budget (44_memory_ops R241). -/
theorem busyPoll_awaiting {u : State} {d : Device} (hb : u.cfg.tapBound = true)
    (hl : u.link = .reference []) (hsel : Selected u.cfg d) (hbit : u.cfg.busyBit ≤ 14)
    (hinert : Inert u.cfg mode w) (hmode : d.mode = mode) (hk : k < u.cfg.pollBudget)
    (hd : u.target = d.awaiting u.cfg k) :
    busyPoll w u = .ok () { scanned (drScans (List.replicate (k + 1) w.toNat))
      { u with target := d.awaiting u.cfg 0 } with caps := [0], polls := k + 1 } := by
  obtain ⟨hcaps, hend⟩ := hinert.polls hmode hbit hsel k
  have hans : answerScans (drScans (List.replicate
      ((List.replicate k (2 ^ u.cfg.busyBit)).length + 1) w.toNat)) { u with polls := 0 } =
      (oks (List.replicate k (2 ^ u.cfg.busyBit)) ++ [.ok 0],
        { u with target := d.awaiting u.cfg 0, polls := 0 }) := by
    rw [List.length_replicate, answerScans_reference _ (s := { u with polls := 0 }) hl]
    show (oks (deviceCaptures u.cfg _ u.target), { u with
      target := deviceScans u.cfg _ u.target, polls := 0 }) = _
    rw [hd, hcaps, hend, oks, List.map_append]
    rfl
  have hclear := pollLoop_clear (left := u.cfg.pollBudget) (s := { u with polls := 0 }) hb hbit
    (fun c hc => by
      rw [List.eq_of_mem_replicate hc]
      exact Nat.testBit_two_pow_self) (Nat.zero_testBit _) (by rwa [List.length_replicate]) hans
  rw [busyPoll, hclear, List.length_replicate, Run.record_ok, Nat.zero_add]
  rfl

/-- A write in a session on the reference device, with a device that clears within the budget: it
completes, and the device is left as the effects of the words up to the pulse leave it, not busy. -/
theorem InSession.exec_write {d : Device} (h : InSession s)
    (hplan : writePlan s.cfg i = some (pre ++ [pulse, w, w], w)) (hvalid : validArgs s.cfg i)
    (hbusy : s.target.busyK = .finite k) (hk : k < s.cfg.pollBudget)
    (heffect : effectAll s.cfg (pre ++ [pulse]) s.target = d)
    (hfires : Fires s.cfg d.mode pulse) (hinert : Inert s.cfg d.mode w) :
    ∃ trace, exec i s = .next (ended { s with target := d.data } trace (.ok .empty)) := by
  obtain ⟨-, -, -, -, -, -, -, -, -, hbit, -⟩ := configOk_iff.mp h.legal
  have hpm : (Machine.accept i s).pm = .commandsActive := h.pm
  have hd : shiftAll s.cfg (pre ++ [pulse, w, w]) s.target = d.data.awaiting s.cfg k := by
    rw [← heffect]
    exact shiftAll_write hbusy (by rw [heffect]) hfires hinert
  have hsel : Selected s.cfg d.data := by
    have hsel' := h.selected.shiftAll (pre ++ [pulse, w, w])
    rw [hd] at hsel'
    exact hsel'
  have hphase := (h.accept i).scriptPhase (pre ++ [pulse, w, w])
  rw [exec_writePlan hplan, argsOk_iff.mpr hvalid, writeOperation, if_neg (not_not.mpr hpm),
    if_neg nofun, hphase, Run.andThen_ok,
    busyPoll_awaiting (mode := d.mode) (k := k) (d := d.data)]
  case hb => exact h.bound
  case hl => exact h.link
  case hd => exact hd
  case hmode => rfl
  · exact ⟨_, rfl⟩
  all_goals assumption

end Writes

end Sys2Proof.Machine

/-! PROOF. The byte operations and the chip erase on the reference device (44_memory_ops sections 2 and 4
to 6, 47_reference_device section 3): each script's effect on the device's data, and what follows. -/

namespace Sys2Proof.Machine

@[simp] theorem effectAll_nil (c : Config) (d : Device) : effectAll c [] d = d := rfl

@[simp] theorem effectAll_cons (c : Config) (w : CmdWord) (words : List CmdWord) (d : Device) :
    effectAll c (w :: words) d = effectAll c words (d.effect c w) := rfl

/-! ### Poll words and pulse words of the modes that write (R310, R311) -/

section Modes

variable (c : Config)

/-- A word of the EEPROM read's fixed bits has an effect in the EEPROM read mode only (R308). -/
theorem effect_eepromReadWord {w : CmdWord} (hop : wordOp7 w = 0x33) (hw : Harmless w) {d : Device}
    (h : d.mode ≠ .eepromRead) : d.effect c w = d := by
  have hlatch : w ≠ 0x7700 := by
    rintro rfl
    revert hop
    decide
  rw [Device.effect, hop, if_neg (by decide), if_neg (by decide), if_neg (by decide),
    if_neg (by decide), if_neg (by decide), if_neg fun hread => h hread.2, if_neg hlatch,
    pulse_harmless hw]

theorem effect_3300 {d : Device} (h : d.mode ≠ .eepromRead) : d.effect c 0x3300 = d :=
  effect_eepromReadWord c rfl ⟨by decide, by decide, by decide⟩ h

theorem effect_3380 {d : Device} (h : d.mode ≠ .eepromRead) : d.effect c 0x3380 = d :=
  effect_eepromReadWord c rfl ⟨by decide, by decide, by decide⟩ h

/-- The modes that write read no data. -/
theorem inert_3300 {mode : SubMode} (hread : ∀ d : Device, d.mode = mode → ∀ w, d.readData c w = 0)
    (hmode : mode ≠ .eepromRead) : Inert c mode 0x3300 :=
  fun d hd => ⟨effect_3300 c (by rw [hd]; exact hmode), hread d hd _⟩

theorem inert_3700 {mode : SubMode} (hread : ∀ d : Device, d.mode = mode → ∀ w, d.readData c w = 0) :
    Inert c mode 0x3700 := fun d hd => ⟨effect_3700 d, hread d hd _⟩

theorem inert_chipErase : Inert c .chipErase 0x3380 :=
  fun d hd => ⟨effect_3380 c (by rw [hd]; nofun), by rw [Device.readData, hd]⟩

theorem inert_flashWrite : Inert c .flashWrite 0x3700 :=
  inert_3700 c fun d hd w => by rw [Device.readData, hd]

theorem inert_eepromWrite : Inert c .eepromWrite 0x3300 :=
  inert_3300 c (fun d hd w => by rw [Device.readData, hd]) nofun

theorem inert_fuseHighWrite : Inert c .fuseWrite 0x3700 :=
  inert_3700 c fun d hd w => by rw [Device.readData, hd]

theorem inert_fuseLowWrite : Inert c .fuseWrite 0x3300 :=
  inert_3300 c (fun d hd w => by rw [Device.readData, hd]) nofun

theorem inert_lockWrite : Inert c .lockWrite 0x3300 :=
  inert_3300 c (fun d hd w => by rw [Device.readData, hd]) nofun

variable {c} {d : Device}

theorem effect_erase (h : d.mode = .chipErase) : d.effect c 0x3180 =
    { d with flash := [], eeprom := [], lock := 0x3F, trig := 2 } := by
  have hpulse : d.effect c 0x3180 = d.pulse c 0x3180 := rfl
  rw [hpulse, Device.pulse, h]
  rfl

theorem effect_commit (h : d.mode = .flashWrite) : d.effect c 0x3500 = (d.commitPage c).strobe := by
  have hpulse : d.effect c 0x3500 = d.pulse c 0x3500 := rfl
  rw [hpulse, Device.pulse, h]
  rfl

theorem effect_storeEeprom (h : d.mode = .eepromWrite) : d.effect c 0x3100 =
    { d with eeprom := Memory.write (d.eepromAddress c) d.eel d.eeprom, trig := 2 } := by
  have hpulse : d.effect c 0x3100 = d.pulse c 0x3100 := rfl
  rw [hpulse, Device.pulse, h]
  rfl

theorem effect_storeFuseHigh (h : d.mode = .fuseWrite) : d.effect c 0x3500 =
    { d with fuseHi := d.dl, trig := 2 } := by
  have hpulse : d.effect c 0x3500 = d.pulse c 0x3500 := rfl
  rw [hpulse, Device.pulse, h]
  rfl

theorem effect_storeFuseLow (h : d.mode = .fuseWrite) : d.effect c 0x3100 =
    { d with fuseLo := d.dl, trig := 2 } := by
  have hpulse : d.effect c 0x3100 = d.pulse c 0x3100 := rfl
  rw [hpulse, Device.pulse, h]
  rfl

theorem effect_storeLock (h : d.mode = .lockWrite) : d.effect c 0x3100 =
    { d with lock := d.dl.extractLsb' 0 6, trig := 2 } := by
  have hpulse : d.effect c 0x3100 = d.pulse c 0x3100 := rfl
  rw [hpulse, Device.pulse, h]
  rfl

theorem effect_latchEeprom (h : d.mode = .eepromWrite) : d.effect c 0x7700 = { d with eel := d.dl } := by
  have hlatch : d.effect c 0x7700 = d.latch c := rfl
  rw [hlatch, Device.latch, h]

end Modes

/-! ### The scripts that write -/

section Scripts

variable (c : Config) (d : Device)

theorem effectAll_chipErase : effectAll c ([0x2380] ++ [0x3180]) d =
    { d with mode := .chipErase, trig := 2, flash := [], eeprom := [], lock := 0x3F } := by
  have henter : d.effect c 0x2380 = { d with mode := .chipErase, trig := 0 } := rfl
  simp only [List.cons_append, List.nil_append, effectAll_cons, effectAll_nil, henter, effect_erase]

theorem effectAll_fuseHigh (b : Byte) :
    effectAll c ([0x2340, dataLoWord referenceCmd b, 0x3700] ++ [0x3500]) d =
      { d with mode := .fuseWrite, dl := b, fuseHi := b, trig := 2 } := by
  have henter : d.effect c 0x2340 = { d with mode := .fuseWrite, trig := 0 } := rfl
  simp only [List.cons_append, List.nil_append, effectAll_cons, effectAll_nil, henter,
    effect_dataLo, effect_3700, effect_storeFuseHigh]

theorem effectAll_fuseLow (b : Byte) :
    effectAll c ([0x2340, dataLoWord referenceCmd b, 0x3300] ++ [0x3100]) d =
      { d with mode := .fuseWrite, dl := b, fuseLo := b, trig := 2 } := by
  have henter : d.effect c 0x2340 = { d with mode := .fuseWrite, trig := 0 } := rfl
  simp only [List.cons_append, List.nil_append, effectAll_cons, effectAll_nil, henter,
    effect_dataLo, effect_3300, effect_storeFuseLow, ne_eq, reduceCtorEq, not_false_eq_true]

/-- Of the data register only the six lock bits are stored. -/
theorem effectAll_lock (l : BitVec 6) :
    effectAll c ([0x2320, lkDataWord referenceCmd l, 0x3300] ++ [0x3100]) d =
      { d with mode := .lockWrite, dl := (0b11 : BitVec 2) ++ l, lock := l, trig := 2 } := by
  have henter : d.effect c 0x2320 = { d with mode := .lockWrite, trig := 0 } := rfl
  have hlow : ((0b11 : BitVec 2) ++ l).extractLsb' 0 6 = l := BitVec.extractLsb'_append_eq_right
  simp only [List.cons_append, List.nil_append, effectAll_cons, effectAll_nil, henter,
    effect_lkData, effect_3300, effect_storeLock, hlow, ne_eq, reduceCtorEq, not_false_eq_true]

theorem effectAll_eeprom (ah al b : Byte) :
    effectAll c ([0x2311, addrHiWord referenceCmd ah, addrLoWord referenceCmd al,
        dataLoWord referenceCmd b, 0x3700, 0x7700, 0x3700, 0x3300] ++ [0x3100]) d =
      { d with
        mode := .eepromWrite, ah := ah, al := al, dl := b, eel := b, trig := 2
        eeprom := Memory.write (addressIn c.eepromBytes (ah ++ al).toNat) b d.eeprom } := by
  have henter : d.effect c 0x2311 = { d with mode := .eepromWrite, trig := 0 } := rfl
  simp only [List.cons_append, List.nil_append, effectAll_cons, effectAll_nil, henter,
    effect_addrHi, effect_addrLo, effect_dataLo, effect_3700, effect_3300, effect_latchEeprom,
    effect_storeEeprom, ne_eq, reduceCtorEq, not_false_eq_true, Device.eepromAddress, Device.address]

end Scripts

/-! ### The pulse word of each mode -/

section Pulses

variable (c : Config)

theorem fires_chipErase : Fires c .chipErase 0x3180 :=
  ⟨by decide, fun d hd => by rw [effect_erase hd]⟩

theorem fires_flashWrite : Fires c .flashWrite 0x3500 :=
  ⟨by decide, fun d hd => by rw [effect_commit hd, Device.strobe]⟩

theorem fires_eepromWrite : Fires c .eepromWrite 0x3100 :=
  ⟨by decide, fun d hd => by rw [effect_storeEeprom hd]⟩

theorem fires_fuseHighWrite : Fires c .fuseWrite 0x3500 :=
  ⟨by decide, fun d hd => by rw [effect_storeFuseHigh hd]⟩

theorem fires_fuseLowWrite : Fires c .fuseWrite 0x3100 :=
  ⟨by decide, fun d hd => by rw [effect_storeFuseLow hd]⟩

theorem fires_lockWrite : Fires c .lockWrite 0x3100 :=
  ⟨by decide, fun d hd => by rw [effect_storeLock hd]⟩

end Pulses

/-! ### The obligations on the writes -/

/-- Settles O53: the pulse word of the erase empties the memories and sets the lock bits. -/
theorem chipEraseErasesTheTarget : Obligations.ChipEraseErasesTheTarget := by
  unfold Obligations.ChipEraseErasesTheTarget
  intro s k h hbusy hk
  have hs := h.inSession
  obtain ⟨trace, hexec⟩ := hs.exec_write (i := .chipErase)
    (by simp only [writePlan, chipEraseScript, hs.cmd]; rfl) trivial hbusy hk
    (effectAll_chipErase _ _) (fires_chipErase _) (inert_chipErase _)
  exact ⟨_, hexec, rfl, fun a => ⟨rfl, rfl⟩, rfl, rfl, rfl⟩

/-- The EEPROM address of an address inside the EEPROM is that address. -/
theorem eepromAddress_eq {c : Config} (hc : configOk c = true) {a : Nat} (ha : a < c.eepromBytes) :
    addressIn c.eepromBytes (addrHighByte a ++ addrLowByte a).toNat = a := by
  obtain ⟨-, -, -, -, -, -, heeprom, -⟩ := configOk_iff.mp hc
  rw [address_toNat (by omega), addressIn_eq (by omega), Nat.mod_eq_of_lt ha]

/-- Settles O52: each pulse word stores the byte of the data register at its own place. -/
theorem byteWritesStoreTheirByteOnly : Obligations.ByteWritesStoreTheirByteOnly := by
  unfold Obligations.ByteWritesStoreTheirByteOnly
  intro s a d k h hbusy hk hd
  have hs := h.inSession
  obtain ⟨hc, -, -, -, -, -, -, -, -, hwf⟩ := h
  refine ⟨fun ha => ?_, ?_, ?_, ?_⟩
  · obtain ⟨trace, hexec⟩ := hs.exec_write (i := .eepromWrite a d)
      (by simp only [writePlan, eepromWriteScript, hs.cmd]; rfl) ⟨ha, hd⟩ hbusy hk
      (effectAll_eeprom _ _ (addrHighByte a) (addrLowByte a) (dataByte d)) (fires_eepromWrite _)
      (inert_eepromWrite _)
    rw [eepromAddress_eq hc ha] at hexec
    refine ⟨_, hexec, rfl, ?_, fun a' ha' => ?_, rfl, rfl, rfl, rfl⟩
    · exact (Memory.read_write a a _ hwf).trans (if_pos rfl)
    · exact Memory.read_write_other _ ha' _
  · obtain ⟨trace, hexec⟩ := hs.exec_write (i := .fuseHighWrite d)
      (by simp only [writePlan, fuseHighWriteScript, hs.cmd]; rfl) hd hbusy hk
      (effectAll_fuseHigh _ _ (dataByte d)) (fires_fuseHighWrite _) (inert_fuseHighWrite _)
    exact ⟨_, hexec, rfl, rfl, rfl, rfl, rfl, rfl⟩
  · obtain ⟨trace, hexec⟩ := hs.exec_write (i := .fuseLowWrite d)
      (by simp only [writePlan, fuseLowWriteScript, hs.cmd]; rfl) hd hbusy hk
      (effectAll_fuseLow _ _ (dataByte d)) (fires_fuseLowWrite _) (inert_fuseLowWrite _)
    exact ⟨_, hexec, rfl, rfl, rfl, rfl, rfl, rfl⟩
  · obtain ⟨trace, hexec⟩ := hs.exec_write (i := .lockWrite d)
      (by simp only [writePlan, lockWriteScript, hs.cmd]; rfl) hd hbusy hk
      (effectAll_lock _ _ (lockBits d)) (fires_lockWrite _) (inert_lockWrite _)
    exact ⟨_, hexec, rfl, rfl, rfl, rfl, rfl, rfl⟩

/-! ### The scripts that read -/

/-- The data byte of a response is the read data. -/
theorem dataOut_setWidth (b : Byte) : dataOut (b.setWidth 15) = b := by
  revert b
  decide

/-- The lock byte of a response is the six lock bits. -/
theorem lockOut_lockData (l : BitVec 6) :
    lockOut (((0xC0 : Byte) ||| l.setWidth 8).setWidth 15) = l.setWidth 8 := by
  revert l
  decide

section ReadData

variable (c : Config) (d : Device)

theorem readData_eeprom (ah al al' : Byte) :
    (effectAll c ([0x2303, addrHiWord referenceCmd ah, addrLoWord referenceCmd al,
      erReadWord referenceCmd al'] ++ [0x3200]) d).readData c 0x3200 =
        Memory.read (addressIn c.eepromBytes (ah ++ al').toNat) d.eeprom := by
  have henter : d.effect c 0x2303 = { d with mode := .eepromRead, trig := 0 } := rfl
  simp only [List.cons_append, List.nil_append, effectAll_cons, effectAll_nil, henter, effect_addrHi,
    effect_addrLo, effect_erRead]
  rfl

theorem readData_signature (al : Byte) :
    (effectAll c ([0x2308, addrLoWord referenceCmd al] ++ [0x3200]) d).readData c 0x3200 =
      if al.toNat < c.sigBytes then d.sig.getD al.toNat 0xFF else 0xFF := by
  have henter : d.effect c 0x2308 = { d with mode := .sigCalRead, trig := 0 } := rfl
  simp only [List.cons_append, List.nil_append, effectAll_cons, effectAll_nil, henter, effect_addrLo]
  rfl

theorem readData_calibration (al : Byte) :
    (effectAll c ([0x2308, addrLoWord referenceCmd al] ++ [0x3600]) d).readData c 0x3600 =
      if al.toNat < c.calBytes then d.cal.getD al.toNat 0xFF else 0xFF := by
  have henter : d.effect c 0x2308 = { d with mode := .sigCalRead, trig := 0 } := rfl
  simp only [List.cons_append, List.nil_append, effectAll_cons, effectAll_nil, henter, effect_addrLo]
  rfl

end ReadData

section Reads

variable {c : Config} {d : Device} (hcmd : c.cmd = referenceCmd) (hq : Quiet d)
include hcmd hq

/-- The captures of a read script on a quiet device. -/
theorem capture_of_read {i : Instr} {words before after : List CmdWord} {w : CmdWord}
    {extract : List CmdWord → List Byte} (hplan : readPlan c i = some (words, extract))
    (hsplit : words = before ++ w :: after) (hafter : after ≠ []) {n : Nat}
    (hn : n = before.length + 1) : captureAt (scriptCaptures c words d) n =
      ((effectAll c (before ++ [w]) d).readData c w).setWidth 15 :=
  captureAt_quiet (readPlan_harmless hcmd hplan) hq hsplit hafter hn

end Reads

/-- A read in a session on the reference device returns its bytes of the captures. -/
theorem InSession.returns {s : State} (h : InSession s) {i : Instr} {words : List CmdWord}
    {extract : List CmdWord → List Byte} {bytes : List Byte}
    (hplan : readPlan s.cfg i = some (words, extract)) (hvalid : validArgs s.cfg i)
    (hbytes : extract (scriptCaptures s.cfg words s.target) = bytes) :
    ∃ t, exec i s = .next t ∧ t.result = some (.ok (.bytes bytes)) := by
  subst hbytes
  exact ⟨_, h.exec_read hplan hvalid, rfl⟩

section ByteReads

variable {s : State} (hs : InSession s) (hq : Quiet s.target)
include hs hq

theorem eepromRead_returns {a : Nat} (ha : a < s.cfg.eepromBytes) :
    ∃ t, exec (.eepromRead a) s = .next t ∧
      t.result = some (.ok (.bytes [Memory.read a s.target.eeprom])) := by
  refine hs.returns rfl ha ?_
  rw [capture_of_read hs.cmd hq (i := .eepromRead a) (n := 5) rfl (w := 0x3200) (after := [0x3300])
    (before := [0x2303, addrHiWord referenceCmd (addrHighByte a),
      addrLoWord referenceCmd (addrLowByte a), erReadWord referenceCmd (addrLowByte a)])
    (by rw [eepromReadScript, hs.cmd]; rfl) nofun rfl, dataOut_setWidth, readData_eeprom,
    eepromAddress_eq hs.legal ha]

theorem fuseHighRead_returns : ∃ t, exec .fuseHighRead s = .next t ∧
    t.result = some (.ok (.bytes [s.target.fuseHi])) := by
  refine hs.returns rfl trivial ?_
  rw [capture_of_read hs.cmd hq (i := .fuseHighRead) (n := 2) rfl (before := [0x2304]) (w := 0x3E00)
    (after := [0x3F00]) (by rw [fuseHighReadScript, hs.cmd]; rfl) nofun rfl, dataOut_setWidth]
  rfl

theorem fuseLowRead_returns : ∃ t, exec .fuseLowRead s = .next t ∧
    t.result = some (.ok (.bytes [s.target.fuseLo])) := by
  refine hs.returns rfl trivial ?_
  rw [capture_of_read hs.cmd hq (i := .fuseLowRead) (n := 2) rfl (before := [0x2304]) (w := 0x3200)
    (after := [0x3300]) (by rw [fuseLowReadScript, hs.cmd]; rfl) nofun rfl, dataOut_setWidth]
  rfl

theorem lockRead_returns : ∃ t, exec .lockRead s = .next t ∧
    t.result = some (.ok (.bytes [s.target.lock.setWidth 8])) := by
  refine hs.returns rfl trivial ?_
  rw [capture_of_read hs.cmd hq (i := .lockRead) (n := 2) rfl (before := [0x2304]) (w := 0x3600)
    (after := [0x3700]) (by rw [lockReadScript, hs.cmd]; rfl) nofun rfl]
  exact congrArg (fun b => [b]) (lockOut_lockData _)

theorem fusesLockRead_returns : ∃ t, exec .fusesLockRead s = .next t ∧ t.result = some (.ok (.bytes
    [s.target.fuseHi, s.target.fuseLo, s.target.lock.setWidth 8])) := by
  have hscript : fusesLockReadScript s.cfg = [0x2304, 0x3E00, 0x3200, 0x3600, 0x3700] := by
    rw [fusesLockReadScript, hs.cmd]
    rfl
  have hcapture {before after : List CmdWord} {w : CmdWord}
      (hsplit : fusesLockReadScript s.cfg = before ++ w :: after) (hafter : after ≠ []) {n : Nat}
      (hn : n = before.length + 1) :=
    capture_of_read hs.cmd hq (i := .fusesLockRead) rfl hsplit hafter hn
  refine hs.returns rfl trivial ?_
  rw [hcapture (n := 2) (before := [0x2304]) (w := 0x3E00) (after := [0x3200, 0x3600, 0x3700]) hscript
      nofun rfl,
    hcapture (n := 3) (before := [0x2304, 0x3E00]) (w := 0x3200) (after := [0x3600, 0x3700]) hscript
      nofun rfl,
    hcapture (n := 4) (before := [0x2304, 0x3E00, 0x3200]) (w := 0x3600) (after := [0x3700]) hscript
      nofun rfl,
    dataOut_setWidth, dataOut_setWidth]
  exact congrArg (fun b => [_, _, b]) (lockOut_lockData _)

theorem signatureRead_returns {i : Nat} (hi : i < s.cfg.sigBytes) :
    ∃ t, exec (.signatureRead i) s = .next t ∧
      t.result = some (.ok (.bytes [s.target.sig.getD i 0xFF])) := by
  obtain ⟨-, -, -, -, -, -, -, ⟨-, hsig⟩, -⟩ := configOk_iff.mp hs.legal
  refine hs.returns rfl hi ?_
  rw [capture_of_read hs.cmd hq (i := .signatureRead i) (n := 3) rfl (w := 0x3200) (after := [0x3300])
    (before := [0x2308, addrLoWord referenceCmd (addrLowByte i)])
    (by rw [signatureReadScript, hs.cmd]; rfl) nofun rfl, dataOut_setWidth, readData_signature,
    addrLowByte_toNat, Nat.mod_eq_of_lt (by omega), if_pos hi]

theorem calibrationRead_returns {i : Nat} (hi : i < s.cfg.calBytes) :
    ∃ t, exec (.calibrationRead i) s = .next t ∧
      t.result = some (.ok (.bytes [s.target.cal.getD i 0xFF])) := by
  obtain ⟨-, -, -, -, -, -, -, -, ⟨-, hcal⟩, -⟩ := configOk_iff.mp hs.legal
  refine hs.returns rfl hi ?_
  rw [capture_of_read hs.cmd hq (i := .calibrationRead i) (n := 3) rfl (w := 0x3600) (after := [0x3700])
    (before := [0x2308, addrLoWord referenceCmd (addrLowByte i)])
    (by rw [calibrationReadScript, hs.cmd]; rfl) nofun rfl, dataOut_setWidth, readData_calibration,
    addrLowByte_toNat, Nat.mod_eq_of_lt (by omega), if_pos hi]

end ByteReads

/-- Settles O54: each byte is the read data of the word before its capture. -/
theorem byteReadsReturnTheTargetsBytes : Obligations.ByteReadsReturnTheTargetsBytes := by
  unfold Obligations.ByteReadsReturnTheTargetsBytes
  intro s a i h hidle
  have hs := h.inSession
  have hq := quiet_of_not_busy hidle
  exact ⟨eepromRead_returns hs hq, fuseHighRead_returns hs hq, fuseLowRead_returns hs hq,
    lockRead_returns hs hq, fusesLockRead_returns hs hq, signatureRead_returns hs hq,
    calibrationRead_returns hs hq⟩

end Sys2Proof.Machine

/-! PROOF. Flash pages on the reference device (44_memory_ops sections 3 and 7, 47_reference_device section
3): what a page read returns from a device that is not busy, what a page write stores, and the round trip. -/

namespace Sys2Proof.Machine

/-! ### Lists of pairs -/

/-- Pairs in a row are the values in a row. -/
theorem flatMap_pairs {α : Type} (f : Nat → α) (n : Nat) :
    (List.range n).flatMap (fun k => [f (2 * k), f (2 * k + 1)]) = (List.range (2 * n)).map f := by
  induction n with
  | zero => rfl
  | succ n ih =>
    rw [List.range_succ, List.flatMap_append, ih, show 2 * (n + 1) = 2 * n + 1 + 1 from rfl,
      List.range_succ, List.range_succ]
    simp

theorem range_map_getD {α : Type} (data : List Nat) (f : Nat → α) :
    (List.range data.length).map (fun j => f (data.getD j 0)) = data.map f := by
  refine List.ext_getElem (by simp) fun j h _ => ?_
  have hj : j < data.length := by simpa using h
  simp [hj]

/-- The numbers below `n`, split at one of them. -/
theorem range_split {k n : Nat} (hk : k < n) : ∃ rest, List.range n = List.range k ++ k :: rest := by
  obtain ⟨m, rfl⟩ := Nat.exists_eq_add_of_lt hk
  rw [Nat.add_assoc, List.range_add, List.range_succ_eq_map]
  exact ⟨_, rfl⟩

theorem readWord_low (wa : Nat) (m : Memory) :
    (Memory.readWord wa m).extractLsb' 0 8 = Memory.read (2 * wa) m :=
  BitVec.extractLsb'_append_eq_right

theorem readWord_high (wa : Nat) (m : Memory) :
    (Memory.readWord wa m).extractLsb' 8 8 = Memory.read (2 * wa + 1) m :=
  BitVec.extractLsb'_append_eq_left

/-! ### Effects that leave the mode and the scan registers -/

theorem effectAll_mode {c : Config} {words : List CmdWord} (hw : ∀ w ∈ words, wordOp7 w ≠ 0x23) :
    ∀ d : Device, (effectAll c words d).mode = d.mode := by
  induction words with
  | nil => exact fun _ => rfl
  | cons w words ih =>
    obtain ⟨hfirst, hrest⟩ := List.forall_mem_cons.mp hw
    exact fun d => (ih hrest _).trans (effect_mode hfirst d)

theorem Selected.effectAll {c : Config} (words : List CmdWord) : ∀ {d : Device}, Selected c d →
    Selected c (effectAll c words d) := by
  induction words with
  | nil => exact fun h => h
  | cons w words ih =>
    intro d h
    obtain ⟨hir, -, hprog, -⟩ := Device.effect_fixed c w d
    exact ih ⟨by rw [hir]; exact h.1, h.2.1, h.2.2.1, hprog.trans h.2.2.2⟩

/-! ### Page reads -/

section PageRead

variable {c : Config} {p k : Nat}

theorem effect_3200 (d : Device) : d.effect c 0x3200 = d := by
  have hpulse : d.effect c 0x3200 = d.pulse c 0x3200 := rfl
  rw [hpulse, pulse_harmless ⟨by decide, by decide, by decide⟩]

theorem effect_3600 (d : Device) : d.effect c 0x3600 = d := by
  have hpulse : d.effect c 0x3600 = d.pulse c 0x3600 := rfl
  rw [hpulse, pulse_harmless ⟨by decide, by decide, by decide⟩]

/-- The word address of a word of a page inside the flash is that word (R308). -/
theorem wordAddress_eq (hc : configOk c = true) (hp : p * c.pageWords + c.pageWords ≤ c.flashWords)
    (hk : k < c.pageWords) {d : Device} (hah : d.ah = addrHighByte (p * c.pageWords + k))
    (hal : d.al = addrLowByte (p * c.pageWords + k)) :
    d.wordAddress c = p * c.pageWords + k := by
  obtain ⟨-, -, -, -, -, hflash, -⟩ := configOk_iff.mp hc
  rw [Device.wordAddress, Device.address, hah, hal, address_toNat (by omega), addressIn_eq (by omega),
    Nat.mod_eq_of_lt (by omega)]

/-- The words of a page read before word `k` of the page. -/
def pageReadBefore (c : Config) (p k : Nat) : List CmdWord :=
  [c.cmd.frEnter] ++ (List.range k).flatMap (pageReadGroup c (p * c.pageWords))

theorem pageReadScript_split (hk : k < c.pageWords) : ∃ after, pageReadScript c p =
    pageReadBefore c p k ++ pageReadGroup c (p * c.pageWords) k ++ after := by
  obtain ⟨rest, hrest⟩ := range_split hk
  rw [pageReadScript, hrest, List.flatMap_append, List.flatMap_cons, pageReadBefore]
  exact ⟨rest.flatMap (pageReadGroup c (p * c.pageWords)), by simp only [List.append_assoc]⟩

theorem pageReadBefore_length : (pageReadBefore c p k).length = 1 + 5 * k := by
  simp [pageReadBefore, pageReadGroup, seq3Words, List.length_flatMap]
  omega

variable (hcmd : c.cmd = referenceCmd)
include hcmd

theorem pageReadGroup_eq (base k : Nat) : pageReadGroup c base k =
    [addrHiWord referenceCmd (addrHighByte (base + k)), addrLoWord referenceCmd (addrLowByte (base + k)),
      0x3200, 0x3600, 0x3700] := by
  rw [pageReadGroup, hcmd]
  rfl

/-- The words before word `k` leave the read mode and the memories. -/
theorem effectAll_pageReadBefore (d : Device) :
    (effectAll c (pageReadBefore c p k) d).mode = .flashRead ∧
      (effectAll c (pageReadBefore c p k) d).flash = d.flash := by
  have henter : d.effect c referenceCmd.frEnter = { d with mode := .flashRead, trig := 0 } := rfl
  have hgroup : ∀ w ∈ (List.range k).flatMap (pageReadGroup c (p * c.pageWords)),
      Harmless w ∧ wordOp7 w ≠ 0x23 := by
    intro w hw
    obtain ⟨j, -, hw⟩ := List.mem_flatMap.mp hw
    refine ⟨pageReadGroup_harmless hcmd _ j w hw, ?_⟩
    rw [pageReadGroup_eq hcmd] at hw
    have hhi (b : Byte) : wordOp7 (addrHiWord referenceCmd b) = 0x07 := wordOp7_wordWith 0x07 rfl b
    have hlo (b : Byte) : wordOp7 (addrLoWord referenceCmd b) = 0x03 := wordOp7_wordWith 0x03 rfl b
    simp only [List.mem_cons, List.not_mem_nil, or_false] at hw
    rcases hw with rfl | rfl | rfl | rfl | rfl
    · rw [hhi]; decide
    · rw [hlo]; decide
    all_goals decide
  rw [pageReadBefore, hcmd, effectAll_append, effectAll_cons, effectAll_nil, henter,
    effectAll_mode fun w hw => (hgroup w hw).2,
    (effectAll_sameData _ (fun w hw => (hgroup w hw).1) _).flash]
  exact ⟨rfl, rfl⟩

variable {d : Device} (hc : configOk c = true) (hp : p * c.pageWords + c.pageWords ≤ c.flashWords)
  (hq : Quiet d) (hk : k < c.pageWords)
include hc hp hq hk

/-- The captures of word `k` of a page: its low byte and its high byte (44_memory_ops R252). -/
theorem pageRead_captures :
    dataOut (captureAt (scriptCaptures c (pageReadScript c p) d) (4 + 5 * k)) =
        Memory.read (2 * (p * c.pageWords + k)) d.flash ∧
      dataOut (captureAt (scriptCaptures c (pageReadScript c p) d) (5 + 5 * k)) =
        Memory.read (2 * (p * c.pageWords + k) + 1) d.flash := by
  obtain ⟨after, hsplit⟩ := pageReadScript_split (p := p) hk
  rw [pageReadGroup_eq hcmd] at hsplit
  obtain ⟨hmode, hflash⟩ := effectAll_pageReadBefore (p := p) (k := k) hcmd d
  have hlen := pageReadBefore_length (c := c) (p := p) (k := k)
  have hharmless := pageReadScript_harmless hcmd p
  let d' : Device := { effectAll c (pageReadBefore c p k) d with
    ah := addrHighByte (p * c.pageWords + k), al := addrLowByte (p * c.pageWords + k) }
  have haddr : d'.wordAddress c = p * c.pageWords + k := wordAddress_eq hc hp hk rfl rfl
  have hword : Memory.readWord (d'.wordAddress c) d'.flash =
      Memory.readWord (p * c.pageWords + k) d.flash := by rw [haddr, ← hflash]
  constructor
  · rw [captureAt_quiet (n := 4 + 5 * k) (w := 0x3200) (after := 0x3600 :: 0x3700 :: after) hharmless hq
      (before := pageReadBefore c p k ++ [addrHiWord referenceCmd (addrHighByte (p * c.pageWords + k)),
        addrLoWord referenceCmd (addrLowByte (p * c.pageWords + k))])
      (by rw [hsplit]; simp) nofun (by rw [List.length_append, hlen]; simp; omega), dataOut_setWidth,
      ← readWord_low, ← hword]
    simp only [effectAll_append, effectAll_cons, effectAll_nil, effect_addrHi, effect_addrLo,
      effect_3200]
    rw [Device.readData, hmode]
    rfl
  · rw [captureAt_quiet (n := 5 + 5 * k) (w := 0x3600) (after := 0x3700 :: after) hharmless hq
      (before := pageReadBefore c p k ++ [addrHiWord referenceCmd (addrHighByte (p * c.pageWords + k)),
        addrLoWord referenceCmd (addrLowByte (p * c.pageWords + k)), 0x3200])
      (by rw [hsplit]; simp) nofun (by rw [List.length_append, hlen]; simp; omega), dataOut_setWidth,
      ← readWord_high, ← hword]
    simp only [effectAll_append, effectAll_cons, effectAll_nil, effect_addrHi, effect_addrLo,
      effect_3200, effect_3600]
    rw [Device.readData, hmode]
    rfl

omit hk in
/-- The bytes of a page read: each word of the page, its low byte first. -/
theorem pageRead_bytes : pageReadBytes c (scriptCaptures c (pageReadScript c p) d) =
    (List.range c.pageWords).flatMap fun k =>
      [Memory.read (2 * (p * c.pageWords + k)) d.flash,
        Memory.read (2 * (p * c.pageWords + k) + 1) d.flash] := by
  refine List.flatMap_congr fun k hk => ?_
  obtain ⟨hlow, hhigh⟩ := pageRead_captures hcmd hc hp hq (List.mem_range.mp hk)
  rw [hlow, hhigh]

end PageRead

/-! ### Page writes -/

/-- The word of a page that the data bytes `2k` and `2k + 1` make (20_memory R52, R53). -/
def dataWord (data : List Nat) (k : Nat) : Half :=
  dataByte (data.getD (2 * k + 1) 0) ++ dataByte (data.getD (2 * k) 0)

/-- The device in a page write with `k` words of the page latched. -/
structure Filled (c : Config) (p : Nat) (data : List Nat) (d₀ : Device) (k : Nat) (d : Device) :
    Prop where
  mode : d.mode = .flashWrite
  ah : d.ah = addrHighByte (p * c.pageWords)
  al : ∀ j, k = j + 1 → d.al = addrLowByte (p * c.pageWords + j)
  buffer : d.pagebuf = (List.range k).map (dataWord data) ++ d₀.pagebuf.drop k
  same : SameData d₀ d

section PageWrite

variable {c : Config} {p : Nat} {data : List Nat} {d₀ d : Device} {k : Nat}
  (hc : configOk c = true) (hcmd : c.cmd = referenceCmd)
  (hp : p * c.pageWords + c.pageWords ≤ c.flashWords) (hbuf : d₀.pagebuf.length = c.pageWords)

/-- Storing word `k` behind the words before it. -/
theorem set_word (f : Nat → Half) {buf : List Half} (hk : k < buf.length) :
    ((List.range k).map f ++ buf.drop k).set k (f k) =
      (List.range (k + 1)).map f ++ buf.drop (k + 1) := by
  rw [List.set_append_right _ _ (by simp), List.drop_eq_getElem_cons hk, List.range_succ,
    List.map_append, List.append_assoc, List.length_map, List.length_range, Nat.sub_self,
    List.set_cons_zero]
  rfl

include hc hcmd hp hbuf

/-- One group latches one word. -/
theorem Filled.group (hk : k < c.pageWords) (h : Filled c p data d₀ k d) :
    Filled c p data d₀ (k + 1) (effectAll c (pageWriteGroup c (p * c.pageWords) data k) d) := by
  let d' : Device := { d with
    al := addrLowByte (p * c.pageWords + k)
    dl := dataByte (data.getD (2 * k) 0)
    dh := dataByte (data.getD (2 * k + 1) 0) }
  have haddr : d'.wordAddress c = p * c.pageWords + k :=
    wordAddress_eq hc hp hk (h.ah.trans (page_high_byte hc hk)) rfl
  have hindex : d'.wordAddress c % c.pageWords = k := by
    rw [haddr, Nat.mul_comm, Nat.mul_add_mod, Nat.mod_eq_of_lt hk]
  have hlatch : d'.effect c 0x7700 = { d' with pagebuf := d.pagebuf.set k (dataWord data k) } := by
    have hword : d'.effect c 0x7700 = d'.latch c := rfl
    have hmode : d'.mode = .flashWrite := h.mode
    rw [hword, Device.latch, hmode]
    dsimp only
    rw [hindex]
    rfl
  have hgroup : effectAll c (pageWriteGroup c (p * c.pageWords) data k) d =
      { d' with pagebuf := d.pagebuf.set k (dataWord data k) } := by
    rw [pageWriteGroup, hcmd]
    show effectAll c [addrLoWord referenceCmd _, dataLoWord referenceCmd _, dataHiWord referenceCmd _,
      0x3700, 0x7700, 0x3700] d = _
    simp only [effectAll_cons, effectAll_nil, effect_addrLo, effect_dataLo, effect_dataHi, effect_3700]
    exact hlatch
  rw [hgroup]
  refine ⟨h.mode, h.ah, fun j hj => ?_, ?_, h.same.trans ⟨rfl, rfl, rfl, rfl, rfl, rfl, rfl⟩⟩
  · obtain rfl : k = j := by omega
    rfl
  · show d.pagebuf.set k (dataWord data k) = _
    rw [h.buffer, set_word _ (by rw [hbuf]; exact hk)]

/-- The groups up to word `k` latch the words up to `k`. -/
theorem filled_groups (h : Filled c p data d₀ 0 d) : ∀ {k : Nat}, k ≤ c.pageWords →
    Filled c p data d₀ k
      (effectAll c ((List.range k).flatMap (pageWriteGroup c (p * c.pageWords) data)) d) := by
  intro k
  induction k with
  | zero => exact fun _ => h
  | succ k ih =>
    intro hk
    rw [List.range_succ, List.flatMap_append, effectAll_append, List.flatMap_cons, List.flatMap_nil,
      List.append_nil]
    exact (ih (Nat.le_of_succ_le hk)).group hc hcmd hp hbuf hk

/-- The words of a page write up to its pulse word. -/
def pageWritePre (c : Config) (p : Nat) (data : List Nat) : List CmdWord :=
  [0x2310, addrHiWord referenceCmd (addrHighByte (p * c.pageWords))]
    ++ (List.range c.pageWords).flatMap (pageWriteGroup c (p * c.pageWords) data) ++ [0x3700]

omit hc hp hbuf in
theorem pageWriteScript_pre : pageWriteScript c p data =
    pageWritePre c p data ++ [0x3500, 0x3700, 0x3700] := by
  rw [pageWriteScript, pageWritePre, hcmd, List.append_assoc _ [(0x3700 : CmdWord)]]
  rfl

theorem filled_pre : Filled c p data d₀ c.pageWords (effectAll c (pageWritePre c p data) d₀) := by
  have henter : d₀.effect c 0x2310 = { d₀ with mode := .flashWrite, trig := 0 } := rfl
  have hstart : Filled c p data d₀ 0
      { d₀ with mode := .flashWrite, trig := 0, ah := addrHighByte (p * c.pageWords) } :=
    ⟨rfl, rfl, nofun, rfl, ⟨rfl, rfl, rfl, rfl, rfl, rfl, rfl⟩⟩
  rw [pageWritePre, effectAll_append, effectAll_append]
  simp only [effectAll_cons, effectAll_nil, henter, effect_addrHi, effect_3700]
  exact filled_groups hc hcmd hp hbuf hstart (Nat.le_refl _)

/-- A page write stores the words of its data at its page (44_memory_ops R251, R310). -/
theorem pageWrite_stores :
    (effectAll c (pageWritePre c p data ++ [0x3500]) d₀).mode = .flashWrite ∧
      (effectAll c (pageWritePre c p data ++ [0x3500]) d₀).flash =
        Memory.writeWords (p * c.pageWords) ((List.range c.pageWords).map (dataWord data)) d₀.flash := by
  have h := filled_pre (data := data) hc hcmd hp hbuf
  obtain ⟨-, -, hpos, -⟩ := configOk_iff.mp hc
  obtain ⟨n, hn⟩ := Nat.exists_eq_add_of_le' hpos
  have hlast : n < c.pageWords := by omega
  have haddr := wordAddress_eq hc hp hlast (h.ah.trans (page_high_byte hc hlast)) (h.al n hn)
  have hbuffer := h.buffer
  rw [List.drop_eq_nil_of_le hbuf.le, List.append_nil] at hbuffer
  rw [effectAll_append, effectAll_cons, effectAll_nil, effect_commit h.mode]
  refine ⟨h.mode, ?_⟩
  rw [← hbuffer, ← h.same.flash, ← page_of_word hlast, ← haddr]
  rfl

end PageWrite

/-! ### The round trip -/

/-- The bytes of the words written are the data (20_memory R52, R53). -/
theorem dataWord_bytes {n : Nat} {data : List Nat} (hlen : data.length = 2 * n) :
    (List.range n).flatMap (fun k =>
      [(dataWord data k).extractLsb' 0 8, (dataWord data k).extractLsb' 8 8]) =
      data.map (BitVec.ofNat 8) := by
  have hlow (k : Nat) : (dataWord data k).extractLsb' 0 8 = dataByte (data.getD (2 * k) 0) :=
    BitVec.extractLsb'_append_eq_right
  have hhigh (k : Nat) : (dataWord data k).extractLsb' 8 8 = dataByte (data.getD (2 * k + 1) 0) :=
    BitVec.extractLsb'_append_eq_left
  simp only [hlow, hhigh]
  rw [flatMap_pairs fun j => dataByte (data.getD j 0), ← hlen]
  exact range_map_getD data dataByte

/-- Settles O50: the write leaves the data's words at the page and the device not busy, and the read
returns the bytes of the page. -/
theorem flashPageRoundTrip : Obligations.FlashPageRoundTrip := by
  unfold Obligations.FlashPageRoundTrip
  intro s p k data h hvalid hbusy hk
  have hs := h.inSession
  obtain ⟨hc, -, hcmd, -, -, -, -, hbuf, hwf, -⟩ := h
  obtain ⟨hp, hlen, -⟩ := id hvalid
  have hin := page_in_flash hp
  obtain ⟨hmode, hflash⟩ := pageWrite_stores (data := data) hc hcmd hin hbuf
  obtain ⟨trace, hwrite⟩ := hs.exec_write (i := .flashPageWrite p data)
    (by simp only [writePlan, pageWriteScript_pre hcmd, hcmd]; rfl) hvalid hbusy hk rfl
    (by rw [hmode]; exact fires_flashWrite _) (by rw [hmode]; exact inert_flashWrite _)
  have ht : InSession (ended { s with
      target := (effectAll s.cfg (pageWritePre s.cfg p data ++ [0x3500]) s.target).data } trace
      (.ok .empty)) := ⟨⟨hs.bound, hs.link, hs.selected.effectAll _⟩, hs.legal, hs.cmd, hs.pm, hs.cache⟩
  obtain ⟨u, hread, hresult⟩ := ht.returns (i := .flashPageRead p) rfl hp
    (pageRead_bytes hcmd hc hin ⟨rfl, rfl⟩)
  refine ⟨_, u, hwrite, rfl, hread, ?_⟩
  have hword (k : Nat) (hk : k < s.cfg.pageWords) : Memory.readWord (p * s.cfg.pageWords + k)
      (effectAll s.cfg (pageWritePre s.cfg p data ++ [0x3500]) s.target).data.flash =
        dataWord data k := by
    have hlt : k < ((List.range s.cfg.pageWords).map (dataWord data)).length := by simpa using hk
    refine (congrArg _ hflash).trans ((Memory.readWord_writeWords _ _ k _ hwf hlt).trans ?_)
    rw [List.getElem_map, List.getElem_range]
  rw [hresult, ← dataWord_bytes hlen]
  refine congrArg (fun bytes => some (Result.ok (OkData.bytes bytes)))
    (List.flatMap_congr fun k hk => ?_)
  rw [← hword k (List.mem_range.mp hk), readWord_low, readWord_high]
  rfl

end Sys2Proof.Machine

/-! PROOF. A range read over the reference device (45_target_interface section 2, 47_reference_device
sections 1 to 3): the device through the enter sequence, the pages and the exit sequence. -/

namespace Sys2Proof.Machine

/-- A run that ends with a value and a state that meet `P`. -/
abbrev Succeeds {α : Type} (P : α → State → Prop) (r : Run α) : Prop :=
  r.Meets P (fun _ _ _ => False) fun _ => False

/-! ### The device at the scans of enter and exit -/

section Scans

variable {c : Config} {d : Device}

/-- A load through the cache moves the instruction register to its code (40_scan_primitives R115). -/
theorem deviceScans_load {cache : IrCache} {code : Nat} (hcode : code < 16)
    (hcache : ∀ v, cache = .known v → v.toNat = d.ir.toNat) :
    deviceScans c (loadScans cache code) d = { d with ir := BitVec.ofNat 4 code } := by
  unfold loadScans
  split
  case isTrue hhit =>
    have hir : d.ir = BitVec.ofNat 4 code := by
      apply BitVec.eq_of_toNat_eq
      rw [← hcache _ hhit, loaded_code hcode rfl, BitVec.toNat_ofNat]
      omega
    rw [← hir]
    rfl
  case isFalse =>
    have hcut : code % 16 = code := Nat.mod_eq_of_lt hcode
    rw [hcut]
    rfl

theorem ofNat_code {code : Nat} (hcode : code < 16) : (BitVec.ofNat 4 code).toNat = code := by
  rw [BitVec.toNat_ofNat]
  omega

/-- What a load leaves in the cache is what it leaves in the instruction register. -/
theorem loaded_coherent {code : Nat} (hcode : code < 16) : ∀ v, loaded code = .known v →
    v.toNat = (BitVec.ofNat 4 code).toNat := fun v hv => by
  rw [ofNat_code hcode]
  exact loaded_code hcode hv

/-- A data scan behind the reset instruction writes the reset register (R304). -/
theorem deviceScans_reset {w v : Nat} (hcode : c.irAvrReset < 16) :
    deviceScans c [.dr w v] { d with ir := BitVec.ofNat 4 c.irAvrReset } =
      { d with ir := BitVec.ofNat 4 c.irAvrReset, reset := trunc 1 v == c.resetAssert } := by
  show (Device.scanDr c v _).2 = _
  rw [Device.scanDr, if_pos (ofNat_code hcode)]

/-- A data scan behind the enable instruction writes the enable register (R305). -/
theorem deviceScans_enable {w v : Nat} (hcode : c.irProgEnable < 16)
    (hne : c.irAvrReset ≠ c.irProgEnable) :
    deviceScans c [.dr w v] { d with ir := BitVec.ofNat 4 c.irProgEnable } =
      Device.enable c v { d with ir := BitVec.ofNat 4 c.irProgEnable } := by
  have hir := ofNat_code hcode
  show (Device.scanDr c v _).2 = _
  rw [Device.scanDr, if_neg (by rw [hir]; exact hne.symm), if_pos hir]

end Scans

/-- A configuration that the reference device tells apart: three codes, the reset values and the two
patterns of the enable register. -/
structure ToldApart (c : Config) : Prop where
  legal : configOk c = true
  resetEnable : c.irAvrReset ≠ c.irProgEnable
  resetCommands : c.irAvrReset ≠ c.irProgCommands
  enableCommands : c.irProgEnable ≠ c.irProgCommands
  assert : c.resetAssert = 1
  release : c.resetRelease = 0
  signature : c.enableSignature < 2 ^ c.enableDrWidth
  disable : c.disablePattern < 2 ^ c.enableDrWidth
  patterns : c.enableSignature ≠ c.disablePattern

section Sequences

variable {s : State} (h : ToldApart s.cfg)
include h

/-- After the enter sequence target reset is asserted, programming is enabled and no mode is selected. -/
theorem deviceScans_enter (hcache : ∀ v, s.irCache = .known v → v.toNat = s.target.ir.toNat) :
    deviceScans s.cfg (enterTrace s) s.target =
      { s.target with
        ir := BitVec.ofNat 4 s.cfg.irProgCommands, reset := true, prog := true, mode := .none } := by
  obtain ⟨-, -, -, -, -, -, -, -, -, -, -, ⟨hreset, henable, hcommands⟩, ⟨hwidth, -⟩, -⟩ :=
    configOk_iff.mp h.legal
  have hassert : (trunc 1 (s.cfg.resetAssert % 2 ^ s.cfg.resetDrWidth) == s.cfg.resetAssert) = true := by
    rw [h.assert, Nat.mod_eq_of_lt (Nat.one_lt_two_pow (by omega))]
    rfl
  simp only [enterTrace, deviceScans_append]
  rw [deviceScans_load hreset hcache, deviceScans_reset hreset, hassert,
    deviceScans_load henable (loaded_coherent hreset),
    deviceScans_enable henable h.resetEnable, Nat.mod_eq_of_lt h.signature, Device.enable,
    if_pos ⟨rfl, rfl⟩, deviceScans_load hcommands (loaded_coherent henable)]

/-- After the exit sequence programming is disabled and target reset released. -/
theorem deviceScans_exit (hs : InSession s) :
    deviceScans s.cfg (exitTrace s) s.target =
      { shiftAll s.cfg [0x2300, 0x3300] s.target with
        ir := BitVec.ofNat 4 s.cfg.irAvrReset, prog := false, mode := .none, trig := 0
        rem := .finite 0, reset := false } := by
  obtain ⟨-, -, -, -, -, -, -, -, -, -, -, ⟨hreset, henable, hcommands⟩, -⟩ :=
    configOk_iff.mp h.legal
  have hload : loadScans s.irCache s.cfg.irProgCommands = [] := if_pos hs.cache
  have hnops : deviceScans s.cfg (drScans [0x2300, 0x3300]) s.target =
      shiftAll s.cfg [0x2300, 0x3300] s.target := deviceScans_drScans _ hs.selected
  have hir : (shiftAll s.cfg [0x2300, 0x3300] s.target).ir.toNat = s.cfg.irProgCommands :=
    (hs.selected.shiftAll _).1
  have hrelease : (trunc 1 (s.cfg.resetRelease % 2 ^ s.cfg.resetDrWidth) == s.cfg.resetAssert) =
      false := by
    rw [h.assert, h.release, Nat.zero_mod]
    rfl
  have hneither : ¬ (s.cfg.disablePattern = s.cfg.enableSignature ∧
      (shiftAll s.cfg [0x2300, 0x3300] s.target).reset = true) := fun hboth => h.patterns hboth.1.symm
  simp only [exitTrace, deviceScans_append, hload]
  rw [show deviceScans s.cfg [] s.target = s.target from rfl, hnops,
    deviceScans_load henable (fun v hv => (loaded_code hcommands hv).trans hir.symm),
    deviceScans_enable henable h.resetEnable, Nat.mod_eq_of_lt h.disable, Device.enable,
    if_neg hneither, if_pos rfl, deviceScans_load hreset (loaded_coherent henable),
    deviceScans_reset hreset, hrelease]

end Sequences

/-! ### The three parts of a range read -/

/-- Inside a range read: a session on a device that is not busy, its memories those of `d₀`. -/
structure Reading (c : Config) (d₀ : Device) (s : State) : Prop where
  cfg : s.cfg = c
  session : InSession s
  quiet : Quiet s.target
  same : SameData d₀ s.target

section Parts

variable {c : Config} {d₀ : Device} {s : State}

/-- The enter sequence opens a session that the device knows of. -/
theorem enter_reading (h : ReferenceIdle s) :
    Succeeds (fun _ => Reading s.cfg s.target) (enterProgrammingMode s) := by
  obtain ⟨hc, hfit, hcmd, hl, hpm, ⟨h1, h2, h3⟩, ⟨hassert, hrelease⟩, ⟨hsig, hdis, hpat⟩, hcache, hidle⟩ := h
  obtain ⟨-, -, -, -, -, -, -, -, -, -, -, ⟨-, -, hcommands⟩, hw⟩ := configOk_iff.mp hc
  have happart : ToldApart s.cfg := ⟨hc, h1, h2, h3, hassert, hrelease, hsig, hdis, hpat⟩
  have hans := answerScans_reference (enterTrace s) hl
  rw [deviceScans_enter happart hcache] at hans
  rw [enterProgrammingMode_eq hpm, enterSequence_ok hfit hw hans]
  have hsel : Selected s.cfg { s.target with
      ir := BitVec.ofNat 4 s.cfg.irProgCommands, reset := true, prog := true, mode := .none } :=
    ⟨ofNat_code hcommands, h2.symm, h3.symm, rfl⟩
  have hquiet : Quiet s.target := quiet_of_not_busy hidle
  exact ⟨rfl, ⟨⟨hfit.1, hl, hsel⟩, hc, hcmd, rfl, rfl⟩, hquiet, ⟨rfl, rfl, rfl, rfl, rfl, rfl, rfl⟩⟩

/-- The exit sequence releases the device and leaves its memories. -/
theorem exit_released (hfit : TapFits s) (happart : ToldApart s.cfg) (h : Reading c d₀ s) :
    Succeeds (fun _ t => t.cfg = c ∧ t.pm = .idle ∧ SameData d₀ t.target ∧ t.target.prog = false ∧
      t.target.reset = false) (exitProgrammingMode s) := by
  obtain ⟨-, -, -, -, -, -, -, -, -, -, -, -, hw⟩ := configOk_iff.mp happart.legal
  have hans := answerScans_reference (exitTrace s) h.session.link
  rw [deviceScans_exit happart h.session] at hans
  have hpm : s.pm ≠ .idle := by rw [h.session.pm]; nofun
  obtain ⟨caps, hrun⟩ := exitSequence_ok hfit hw h.session.cmd hans
  have hnops : SameData s.target (shiftAll s.cfg [0x2300, 0x3300] s.target) :=
    (shift_sameData ⟨by decide, by decide, by decide⟩ _).trans
      (shift_sameData ⟨by decide, by decide, by decide⟩ _)
  have hsame := h.same.trans hnops
  rw [exitProgrammingMode_eq hpm, hrun]
  exact ⟨h.cfg, rfl, hsame.trans ⟨rfl, rfl, rfl, rfl, rfl, rfl, rfl⟩, rfl, rfl⟩

theorem shiftAll_sameData {words : List CmdWord} (hw : ∀ w ∈ words, Harmless w) :
    ∀ d : Device, SameData d (shiftAll c words d) := by
  induction words with
  | nil => exact .refl
  | cons w words ih =>
    obtain ⟨hfirst, hrest⟩ := List.forall_mem_cons.mp hw
    exact fun d => (shift_sameData hfirst d).trans (ih hrest _)

/-- One page: its bytes in order (44_memory_ops R252). -/
theorem pageReadBody_reading {p : Nat} (hp : p * c.pageWords + c.pageWords ≤ c.flashWords)
    (h : Reading c d₀ s) : Succeeds (fun bytes t => Reading c d₀ t ∧
      bytes = (List.range (pageBytes c)).map fun j => Memory.read (p * pageBytes c + j) d₀.flash)
      (pageReadBody p s) := by
  obtain ⟨rfl, hs, hq, hsame⟩ := h
  have hharmless := pageReadScript_harmless hs.cmd p
  rw [pageReadBody, hs.scriptPhase]
  refine ⟨⟨rfl, ⟨⟨hs.bound, hs.link, hs.selected.shiftAll _⟩, hs.legal, hs.cmd, hs.pm, hs.cache⟩,
    shiftAll_quiet _ hharmless hq, hsame.trans (shiftAll_sameData hharmless _)⟩, ?_⟩
  refine (pageRead_bytes hs.cmd hs.legal hp hq).trans ?_
  rw [hsame.flash, pageBytes, ← flatMap_pairs fun j =>
    Memory.read (p * (2 * s.cfg.pageWords) + j) d₀.flash]
  refine List.flatMap_congr fun k _ => ?_
  rw [Nat.mul_add, Nat.mul_left_comm, Nat.add_assoc]

/-- Pages in a row: their bytes in order. -/
theorem readPages_reading (left : Nat) : ∀ {p : Nat} {buf : List Byte} {s : State},
    (p + left) * c.pageWords ≤ c.flashWords → Reading c d₀ s →
    Succeeds (fun bytes t => Reading c d₀ t ∧ bytes = buf ++
      (List.range (left * pageBytes c)).map fun j => Memory.read (p * pageBytes c + j) d₀.flash)
      (readPages left p buf s) := by
  induction left with
  | zero => exact fun _ h => ⟨h, by simp⟩
  | succ left ih =>
    intro p buf s hp h
    have hfirst : p * c.pageWords + c.pageWords ≤ c.flashWords := by
      rw [← Nat.succ_mul]
      exact (Nat.mul_le_mul_right _ (by omega)).trans hp
    refine (pageReadBody_reading hfirst h).andThen fun bytes t ht => ?_
    obtain ⟨ht, rfl⟩ := ht
    refine (ih (by rw [show p + 1 + left = p + (left + 1) by omega]; exact hp) ht).mono
      (fun bytes u hu => ⟨hu.1, ?_⟩) (fun _ _ _ h => h) fun _ h => h
    rw [hu.2, List.append_assoc, Nat.succ_mul left, Nat.add_comm (left * pageBytes c), List.range_add,
      List.map_append, List.map_map]
    simp only [Function.comp_def, Nat.succ_mul, Nat.add_assoc]

end Parts

/-! ### The slice -/

/-- The slice of bytes in a row (45_target_interface R282). -/
theorem range_slice {α : Type} (f : Nat → α) {off count n : Nat} (h : off + count ≤ n) :
    (((List.range n).map f).drop off).take count = (List.range count).map fun j => f (off + j) := by
  refine List.ext_getElem (by simp; omega) fun j _ _ => ?_
  simp

/-- The last page of a range inside the flash is a page of the flash. -/
theorem lastPage_in_flash {c : Config} (hc : configOk c = true) {b count : Nat}
    (hrange : b + count ≤ 2 * c.flashWords) (hcount : count ≠ 0) :
    (firstPage c b + (lastPage c b count - firstPage c b + 1)) * c.pageWords ≤ c.flashWords := by
  obtain ⟨-, -, hpos, -, ⟨q, hq⟩, -⟩ := configOk_iff.mp hc
  have hmono : firstPage c b ≤ lastPage c b count := Nat.div_le_div_right (by omega)
  have hlast : lastPage c b count < q := by
    refine Nat.div_lt_of_lt_mul ?_
    rw [pageBytes, Nat.mul_assoc, ← hq]
    omega
  rw [show firstPage c b + (lastPage c b count - firstPage c b + 1) = lastPage c b count + 1 by omega]
  calc (lastPage c b count + 1) * c.pageWords ≤ q * c.pageWords := Nat.mul_le_mul_right _ hlast
    _ = c.flashWords := by rw [hq, Nat.mul_comm]

/-- The whole range read of at least one byte. -/
theorem readFlashRange_reading {b count : Nat} {s : State} (h : ReferenceIdle s)
    (hdev : s.device = true) (hrange : b + count ≤ 2 * s.cfg.flashWords) (hcount : count ≠ 0) :
    Succeeds (fun data t => t.pm = .idle ∧ SameData s.target t.target ∧ t.target.prog = false ∧
      t.target.reset = false ∧ data = .bytes ((List.range count).map fun j =>
        Memory.read (b + j) s.target.flash)) (readFlashRange b count s) := by
  have henter := enter_reading h
  obtain ⟨hc, hfit, -, -, hpm, ⟨h1, h2, h3⟩, ⟨hassert, hrelease⟩, ⟨hsig, hdis, hpat⟩, -⟩ := h
  obtain ⟨-, -, hpos, -⟩ := configOk_iff.mp hc
  rw [readFlashRange, if_neg (by simp [hdev]), if_neg (not_not.mpr hpm),
    if_neg (by simp [rangeArgOk_iff.mpr hrange]), if_neg hcount]
  refine henter.andThen fun _ t ht => ?_
  have htcfg := ht.cfg
  rw [htcfg]
  refine (readPages_reading _ (lastPage_in_flash hc hrange hcount) ht).andThen fun buf u hu => ?_
  obtain ⟨hu, rfl⟩ := hu
  have hucfg := hu.cfg
  refine (exit_released (by rw [TapFits, hucfg]; exact hfit) (by
    rw [hucfg]; exact ⟨hc, h1, h2, h3, hassert, hrelease, hsig, hdis, hpat⟩) hu).andThen fun _ v hv => ?_
  obtain ⟨hvcfg, hidle, hsame, hprog, hreset⟩ := hv
  refine ⟨hidle, hsame, hprog, hreset, congrArg OkData.bytes ?_⟩
  rw [hvcfg, rangeSlice, List.nil_append, range_slice _ (range_in_pages hpos hcount)]
  have hfirst : firstPage s.cfg b * pageBytes s.cfg ≤ b := Nat.div_mul_le_self _ _
  refine List.map_congr_left fun j _ => ?_
  rw [← Nat.add_assoc, Nat.add_sub_cancel' hfirst]

/-- A run that succeeds ends its operation with its result. -/
theorem finish_of_succeeds {P : OkData → State → Prop} {r : Run OkData} (h : Succeeds P r) :
    ∃ data t, finish r = complete (.ok data) t ∧ P data t := by
  cases r with
  | ok data t => exact ⟨data, t, rfl, h⟩
  | err kind info t => exact h.elim
  | stuck t => exact h.elim

/-- Settles O49: the empty range scans nothing; any other enters, reads its pages in a row, exits and
slices. -/
theorem flashRangeReadsTheFlash : Obligations.FlashRangeReadsTheFlash := by
  unfold Obligations.FlashRangeReadsTheFlash
  intro b count s h hdev hrange
  by_cases hcount : count = 0
  · subst hcount
    obtain ⟨-, -, -, -, hpm, -⟩ := h
    have hchecks := flashRangeChecksInOrder
    unfold Obligations.FlashRangeChecksInOrder at hchecks
    have hempty := (hchecks b 0 s).2.2.2 hdev hpm (by omega) rfl
    exact ⟨_, hempty, hpm, rfl, rfl, rfl, rfl, nofun⟩
  · have haccept : ReferenceIdle (accept (.readFlashRange b count) s) := h
    obtain ⟨data, t, hfinish, hidle, hsame, hprog, hreset, hdata⟩ := finish_of_succeeds
      (readFlashRange_reading (b := b) haccept hdev hrange hcount)
    subst hdata
    have hexec := exec_readFlashRange b count s
    rw [runOperation, hfinish] at hexec
    exact ⟨_, hexec, hidle, rfl, rfl, hsame.flash, hsame.eeprom, fun _ => ⟨hprog, hreset⟩⟩

end Sys2Proof.Machine
